-- ==== Sys2Proof/Word.lean ====
section
/-! DEFINITION. The word types of the block (00_scope.md R8, R9, R10): nothing is signed, bit 0 is the least significant. -/

namespace Sys2Proof

/-- A 32-bit word: the host register width, the address width and the command word (R9, R80). -/
abbrev Word := BitVec 32

/-- One byte: the input element of COMPUTE and one cell of external memory (R8, R60). -/
abbrev Byte := BitVec 8

/-- The CRC width W, a sum type over the three widths the source allows (10_state.md R23). -/
inductive Width where
  | w8
  | w16
  | w32
  deriving DecidableEq, Repr

end Sys2Proof
end

