-- ==== Sys2Proof/Config.lean ====
section
/-! DEFINITION. What a platform fixes (the spec's OPEN parameters, 00_scope.md R9), and the free values. -/

namespace Sys2Proof

/-- HOST_ENDIAN (20_memory.md R65): which byte of a host word write into memory lies lowest. -/
inductive Endian where
  | little
  | big
  deriving DecidableEq, Repr

/-- A range of external byte addresses, `base` up to but not including `base + size`. -/
structure Region where
  base : Nat
  size : Nat
  deriving DecidableEq, Repr

/-- The spec's three model parameters (93_implementation_defined.md P1 to P3) as plain data. Every predicate
on the 2^32 addresses is a finite list of ranges, so `readable` can be any MemAdmit. -/
structure Platform where
  /-- CRCU_BASE (20_memory.md R61). -/
  base : Word
  /-- MemAdmit (20_memory.md R63): the Engine may read a byte exactly when some range holds its address. -/
  readable : List Region
  /-- HOST_ENDIAN (20_memory.md R65). -/
  endian : Endian
  deriving DecidableEq, Repr

/-- The number of external byte addresses: ADDR_W is 32 bits (00_scope.md R9, 20_memory.md R60). -/
abbrev Config.addressSpace : Nat := 4294967296

/-- The size of the register window in bytes (10_state.md R20). -/
abbrev Config.windowBytes : Nat := 2048

/-- The spec's `any` (00_scope.md R12): the k-th value drawn in a run. It has no body, so nothing constrains it (log entry 1). -/
opaque Config.freeWord : Nat → Word

/-- The bits held by an entry of TABLE that nothing has written since reset (10_state.md R44, 93 A3), for the entry's index
and the number of draws so far. No run reads it (R39, R43). Free, with no body (log entry 1). -/
opaque Config.freeEntry : Nat → Byte → Word

end Sys2Proof
end

