-- ==== Sys2Proof/Syntax.lean ====
section
/-! DEFINITION. The three commands of the block, one constructor per row of the command map (30_encoding.md R83). -/

namespace Sys2Proof

/-- A command, as its word names it. Every other operand comes from a register (30_encoding.md R82). -/
inductive Instr where
  /-- GENTAB: build the table (41_table_generator.md R123). -/
  | gentab
  /-- COMPUTE: the CRC of a buffer (42_crc_compute.md R148). -/
  | compute
  /-- REFLECT n: reverse the low n bits of OPA (40_reflect.md R102). `n` is the count as a number; R89 bounds it by 63. -/
  | reflect (n : Nat)
  deriving DecidableEq, Repr

end Sys2Proof
end

