-- ==== Sys2Proof/WellFormed.lean ====
section
/-! DEFINITION. Which commands can be assembled, and which platform parameters the spec allows. -/

namespace Sys2Proof

/-- A command that has an encoding: REFLECT's count fits its 6-bit field, 0 to 63 (30_encoding.md R86, R89). -/
def Instr.wellFormed : Instr → Bool
  | .gentab => true
  | .compute => true
  | .reflect n => decide (n < 64)

/-- A range of admitted addresses lies inside the address space (20_memory.md R60). -/
def Region.wellFormed (r : Region) : Bool :=
  decide (r.base + r.size ≤ Config.addressSpace)

/-- The platform's parameters are ones the spec allows: CRCU_BASE is a multiple of 0x800 (20_memory.md R61),
and MemAdmit speaks of existing addresses. -/
def Platform.wellFormed (p : Platform) : Bool :=
  decide (p.base.toNat % Config.windowBytes = 0) && p.readable.all Region.wellFormed

end Sys2Proof
end

