-- ==== Sys2Proof/Decode.lean ====
section
/-! DEFINITION. The command word's decoder, total on every 32-bit word (30_encoding.md R88), and the encoder (R84 to R86).
A command is one 32-bit word, the data of a host write to CMD: there is no byte order (R80, 20_memory.md R65). -/

namespace Sys2Proof

/-- Why a word is illegal: the conditions of 30_encoding.md R87, in the order R88 tests them. The block keeps none of it
(60_exceptions.md R172); the name is for the reader. -/
inductive Illegal where
  /-- Bits 31..14 or bits 7..4 are not all 0. -/
  | reservedBits
  /-- OP is 0 or 4..15. -/
  | reservedOp
  /-- OP is GENTAB or COMPUTE and N is not 0. -/
  | strayCount
  deriving DecidableEq, Repr

/-- What a command word decodes to (30_encoding.md R88). -/
inductive Decoded where
  | command (i : Instr)
  | illegal (why : Illegal)
  deriving DecidableEq, Repr

/-- OP, bits 3..0 of the command word (30_encoding.md R81). -/
def opField (v : Word) : BitVec 4 := v.extractLsb' 0 4

/-- N, bits 13..8 of the command word (30_encoding.md R81, R82). -/
def countField (v : Word) : BitVec 6 := v.extractLsb' 8 6

/-- The reserved bits 31..14 and 7..4 are all 0 (30_encoding.md R81). -/
def reservedClear (v : Word) : Bool :=
  v.extractLsb' 14 18 == 0 && v.extractLsb' 4 4 == 0

/-- The decode function of 30_encoding.md R88. -/
def decode (v : Word) : Decoded :=
  if reservedClear v then
    match (opField v).toNat with
    | 1 => if countField v = 0 then .command .gentab else .illegal .strayCount
    | 2 => if countField v = 0 then .command .compute else .illegal .strayCount
    | 3 => .command (.reflect (countField v).toNat)
    | _ => .illegal .reservedOp
  else
    .illegal .reservedBits

/-- The command word of a command (30_encoding.md R84, R85, R86). -/
def encode : Instr → Word
  | .gentab => 0x00000001
  | .compute => 0x00000002
  | .reflect n => 0x00000003 ||| (BitVec.ofNat 32 n <<< 8)

/-- The command a decoding gives, if it gives one. -/
def Decoded.toOption : Decoded → Option Instr
  | .command i => some i
  | .illegal _ => none

/-- The command our decoder reads from the low `nbits` bits of `w`, numbered as spec/opcode_table.json numbers them:
a command is one 32-bit word (30_encoding.md R80), so the table's numbering is the word's own. -/
def decodeTableWord (nbits w : Nat) : Option Instr :=
  (decode (BitVec.ofNat 32 (w % 2 ^ nbits))).toOption

end Sys2Proof
end

