-- ==== Sys2Proof/Machine/State.lean ====
section
/-! DEFINITION. The machine's state as plain data (10_state.md R45), what it holds at reset (R44), and the reasons a step can stop. -/

namespace Sys2Proof.Machine

/-- The size of one host access: 8, 16, 32 or 64 bits, the sizes 20_memory.md R62 names for the register window. A `MemWrite(addr, n, v)`
into external memory takes the same four sizes, n = 1, 2, 4 or 8. DESIGN CHOICE, log entry 16: the spec gives n no range
(00_scope.md R12); a write of another length is a run of these. -/
inductive Access where
  | byte
  | half
  | word
  | double
  deriving DecidableEq, Repr

/-- The registers of the window, by the names of 30_encoding.md R90 (10_state.md R20). -/
inductive Reg where
  | cfg
  | poly
  | init
  | xorout
  | daddr
  | dlen
  | opa
  | cmd
  | status
  | result
  | acc
  deriving DecidableEq, Repr

/-- What a word-aligned offset of the window selects (10_state.md R20). -/
inductive Slot where
  | reg (r : Reg)
  | unmapped
  | table (i : Byte)
  deriving DecidableEq, Repr

/-- The latch (10_state.md R40): the accepted command with the operands it took at acceptance, exactly those that its
acceptance rule lists (R102, R123, R148). The width code is held decoded, since code 3 is never accepted (R173). -/
inductive Latch where
  | gentab (w : Width) (poly : Word)
  | compute (w : Width) (refin refout : Bool) (init xorout addr len : Word)
  | reflect (a : Word) (n : BitVec 6)
  deriving DecidableEq, Repr

/-- The spec's model faults (60_exceptions.md R186), recorded in the state and never cleared. The run goes on, and is never final. -/
inductive ModelFault where
  /-- A host access to the window that is not an aligned 32-bit word (20_memory.md R62). -/
  | badHostAccess (off : BitVec 11) (size : Access)
  /-- A host memory write into the latched buffer while BUSY = 1 (20_memory.md R77). -/
  | bufferRace (addr : Word)
  deriving DecidableEq, Repr

/-- A host read and the value it returned; `none` where the spec gives the access no value (20_memory.md R62, log entry 8). -/
structure HostRead where
  addr : Word
  size : Access
  value : Option Word
  deriving DecidableEq, Repr

/-- One host action (20_memory.md R71, 30_encoding.md R90): a read or a write at a bus address, or the WAIT loop of R91. -/
inductive HostAction where
  /-- Write the low bits of `data`, as many as `size` says. -/
  | write (addr : Word) (size : Access) (data : BitVec 64)
  | read (addr : Word) (size : Access)
  /-- Read STATUS until BUSY reads 0. -/
  | wait
  deriving DecidableEq, Repr

/-- Who takes a step in the total order of 20_memory.md R71: the Host, with its program's next action, the Engine, or the environment,
which asserts the reset input (00_scope.md R7, 70_reset_and_hazards.md R200). -/
inductive Move where
  | host
  | engine
  | reset
  deriving DecidableEq, Repr

/-- The whole state: the record of 10_state.md R45, the external memory, the platform's parameters, and the model's own fields. -/
structure State where
  /-- CFG.WIDTH, stored as written, 3 included (R22). -/
  width : BitVec 2
  /-- CFG.REFIN (R22). -/
  refin : Bool
  /-- CFG.REFOUT (R22). -/
  refout : Bool
  /-- POLY (R24). -/
  poly : Word
  /-- INIT (R25). -/
  init : Word
  /-- XOROUT (R26). -/
  xorout : Word
  /-- DADDR (R27). -/
  daddr : Word
  /-- DLEN (R28). -/
  dlen : Word
  /-- OPA (R29). -/
  opa : Word
  /-- STATUS.BUSY (R32). -/
  busy : Bool
  /-- STATUS.TVALID (R33). -/
  tvalid : Bool
  /-- STATUS.TWIDTH (R33). -/
  twidth : BitVec 2
  /-- STATUS.ERR (R34). -/
  err : BitVec 4
  /-- STATUS.OVR (R35). -/
  ovr : Bool
  /-- RESULT (R36). -/
  result : Word
  /-- ACC (R37). -/
  acc : Word
  /-- TABLE (R39). An entry is `none` while nothing has written it since reset (R45). -/
  table : Vector (Option Word) 256
  /-- The latch, present exactly when BUSY = 1 (R40). -/
  latch : Option Latch
  /-- The model faults recorded so far, oldest first, never cleared (60_exceptions.md R186). -/
  faults : List ModelFault
  /-- External memory: addresses strictly rising, no entry equal to what an unlisted address reads as (20_memory.md R60). -/
  mem : List Host.Cell
  /-- The platform's parameters. No step changes them (93_implementation_defined.md P1 to P3). -/
  platform : Platform
  /-- The model's own: the latched COMPUTE's buffer has been written by the host (20_memory.md R77, log entry 6). -/
  raced : Bool
  /-- The model's own: how many free values have been drawn (00_scope.md R12, log entry 1). -/
  draws : Nat
  /-- The model's own: the values the host has read, newest first (30_encoding.md R90, log entry 7). -/
  reads : List HostRead
  /-- The model's own: the host actions still to come, the next one first (30_encoding.md R92, log entry 2). -/
  program : List HostAction
  /-- The model's own: who takes the coming steps, in the total order of 20_memory.md R71 (log entry 2). -/
  schedule : List Move
  deriving DecidableEq, Repr

/-- Why the machine stops with a fault. -/
inductive Fault where
  /-- A host write into external memory that would run past the last address, 2^32 - 1: such bytes do not exist
  (20_memory.md R60). Raised by `hostWrite` only. Safe: the machine stops where a bus might do something (log entry 5). -/
  | beyondMemory (addr : Word) (size : Access)
  deriving DecidableEq, Repr

/-- Why a command has no meaning. -/
inductive Refusal where
  /-- A command without a meaning in this model. Raised by no command: all three are modelled. Safe. -/
  | notModelled (mnemonic : String)
  deriving DecidableEq, Repr

/-- The platform at reset. CRCU_BASE, MemAdmit and HOST_ENDIAN are OPEN in the spec; these values are the model's.
DESIGN CHOICE, log entry 4. -/
def platformAtReset : Platform where
  base := 0x40000000
  readable := [⟨0, Config.addressSpace⟩]
  endian := .little

/-- The machine right after reset (10_state.md R44), with nothing in memory, nothing recorded and no program loaded. -/
def State.reset : State where
  width := 0
  refin := false
  refout := false
  poly := 0
  init := 0
  xorout := 0
  daddr := 0
  dlen := 0
  opa := 0
  busy := false
  tvalid := false
  twidth := 0
  err := 0
  ovr := false
  result := 0
  acc := 0
  table := Vector.replicate 256 none
  latch := none
  faults := []
  mem := []
  platform := platformAtReset
  raced := false
  draws := 0
  reads := []
  program := []
  schedule := []

end Sys2Proof.Machine
end

