-- ==== Sys2Proof/Machine/Flags.lean ====
section
/-! DEFINITION. The STATUS and CFG words and the outcome codes (10_state.md R22, R31, R34). -/

namespace Sys2Proof.Machine

/-- ERR = 0, NONE (10_state.md R34). -/
def errNone : BitVec 4 := 0

/-- ERR = 1, ILLEGAL (60_exceptions.md R172). -/
def errIllegal : BitVec 4 := 1

/-- ERR = 2, ARG (60_exceptions.md R173). -/
def errArg : BitVec 4 := 2

/-- ERR = 3, TABLE (60_exceptions.md R174). -/
def errTable : BitVec 4 := 3

/-- ERR = 4, RANGE (60_exceptions.md R175). -/
def errRange : BitVec 4 := 4

/-- ERR = 5, BUS (60_exceptions.md R176). -/
def errBus : BitVec 4 := 5

/-- What a host read of STATUS returns: `zext_32(OVR ++ ERR ++ TWIDTH ++ TVALID ++ BUSY)` (10_state.md R31). -/
def statusWord (s : State) : Word :=
  (BitVec.ofBool s.ovr ++ s.err ++ s.twidth ++ BitVec.ofBool s.tvalid ++ BitVec.ofBool s.busy).setWidth 32

/-- A host write of `v` to STATUS clears OVR if bit 8 is 1 and changes nothing else (10_state.md R31, R35). -/
def writeStatus (v : Word) (s : State) : State :=
  { s with ovr := s.ovr && !v.getLsbD 8 }

/-- What a host read of CFG returns: `zext_32(REFOUT ++ REFIN ++ WIDTH)` (10_state.md R22). -/
def cfgWord (s : State) : Word :=
  (BitVec.ofBool s.refout ++ BitVec.ofBool s.refin ++ s.width).setWidth 32

/-- A host write of `v` to CFG: bits 1..0, 2 and 3 are stored, WIDTH = 3 included, the rest discarded (10_state.md R22). -/
def writeCfg (v : Word) (s : State) : State :=
  { s with width := v.extractLsb' 0 2, refin := v.getLsbD 2, refout := v.getLsbD 3 }

end Sys2Proof.Machine
end

