-- ==== Sys2Proof/Machine/Operands.lean ====
section
/-! DEFINITION. Widths, truncation, and how a command's operands are assembled from the registers (30_encoding.md R82). -/

namespace Sys2Proof.Machine

/-- `W(code)`, undefined at 3 (10_state.md R23). -/
def widthOfCode (c : BitVec 2) : Option Width :=
  match c.toNat with
  | 0 => some .w8
  | 1 => some .w16
  | 2 => some .w32
  | _ => none

/-- The width code of W, the value TWIDTH holds for it (10_state.md R23, R33). -/
def widthCode : Width → BitVec 2
  | .w8 => 0
  | .w16 => 1
  | .w32 => 2

/-- W as a number of bits (10_state.md R23). -/
def widthBits : Width → Nat
  | .w8 => 8
  | .w16 => 16
  | .w32 => 32

/-- The truncation mask of each width (41_table_generator.md R121). -/
def widthMask : Width → Word
  | .w8 => 0x000000FF
  | .w16 => 0x0000FFFF
  | .w32 => 0xFFFFFFFF

/-- `trunc_W(v)`, the low W bits of v, zero-extended to 32 (00_scope.md R11). -/
def truncW (w : Width) (v : Word) : Word := v &&& widthMask w

/-- `byte(v)`, the low 8 bits (00_scope.md R11). -/
def lowByte (v : Word) : Byte := v.setWidth 8

/-- GENTAB's latch: the width and POLY (41_table_generator.md R123). -/
def gentabLatch (w : Width) (s : State) : Latch := .gentab w s.poly

/-- COMPUTE's latch: the width, both flags, INIT, XOROUT, DADDR and DLEN (42_crc_compute.md R148). -/
def computeLatch (w : Width) (s : State) : Latch :=
  .compute w s.refin s.refout s.init s.xorout s.daddr s.dlen

/-- REFLECT's latch: OPA and the 6-bit count (40_reflect.md R102). -/
def reflectLatch (n : Nat) (s : State) : Latch := .reflect s.opa (BitVec.ofNat 6 n)

/-- The table in TABLE is complete and of width W (60_exceptions.md R174). -/
def tableMatches (w : Width) (s : State) : Bool :=
  s.tvalid && s.twidth == widthCode w

/-- The buffer does not run past address 2^32 - 1, the sum taken as an unbounded integer; an empty buffer never does (20_memory.md R68). -/
def bufferInRange (addr len : Word) : Bool :=
  decide (len.toNat = 0) || decide (addr.toNat + len.toNat ≤ Config.addressSpace)

end Sys2Proof.Machine
end

