-- ==== Sys2Proof/Machine/Ops.lean ====
section
/-! DEFINITION. The named operations over memory and state that the commands and the host accesses share. -/

namespace Sys2Proof.Machine

/-- What an address that memory does not list reads as. DESIGN CHOICE, log entry 3: the spec gives external memory no
content before the host writes it. -/
def memDefault : Byte := 0

/-- The byte of external memory at an address. -/
def memByte : List Host.Cell → Nat → Byte
  | [], _ => memDefault
  | (a, v) :: m, x => if a = x then v else memByte m x

/-- Memory with one byte written, kept in canonical form: writing what an unlisted address reads as removes the entry. -/
def memSet : List Host.Cell → Nat → Byte → List Host.Cell
  | [], x, v => if v = memDefault then [] else [(x, v)]
  | (a, u) :: m, x, v =>
    if x < a then
      if v = memDefault then (a, u) :: m else (x, v) :: (a, u) :: m
    else if x = a then
      if v = memDefault then m else (x, v) :: m
    else
      (a, u) :: memSet m x v

/-- Consecutive bytes written from address `x` up. -/
def memSetList : List Host.Cell → Nat → List Byte → List Host.Cell
  | m, _, [] => m
  | m, x, v :: vs => memSetList (memSet m x v) (x + 1) vs

/-- Every listed address lies above `lo - 1` and the addresses rise strictly, exist, and hold something other than the default. -/
def memWfFrom : Nat → List Host.Cell → Bool
  | _, [] => true
  | lo, (a, v) :: m =>
    decide (lo ≤ a) && decide (a < Config.addressSpace) && decide (v ≠ memDefault) && memWfFrom (a + 1) m

/-- The canonical form of memory. -/
def memWf (m : List Host.Cell) : Bool := memWfFrom 0 m

/-- MemAdmit (20_memory.md R63). An address beyond 2^32 - 1 does not exist and is never admitted (R60). -/
def memAdmit (p : Platform) (a : Nat) : Bool :=
  decide (a < Config.addressSpace) && p.readable.any fun r => decide (r.base ≤ a) && decide (a < r.base + r.size)

/-- The Engine's memory primitive `MemRead(addr, 1)`: the byte, or `none` where the platform refuses the read (20_memory.md R63). -/
def memRead (p : Platform) (m : List Host.Cell) (a : Nat) : Option Byte :=
  if memAdmit p a then some (memByte m a) else none

/-- The number of bytes of an access: the n of the host's `MemWrite(addr, n, v)`, of which only these four are modelled
(00_scope.md R12; DESIGN CHOICE, log entry 16). -/
def accessBytes : Access → Nat
  | .byte => 1
  | .half => 2
  | .word => 4
  | .double => 8

/-- Byte k of a datum, k = 0 the least significant (00_scope.md R10). -/
def laneByte (data : BitVec 64) (k : Nat) : Byte := data.extractLsb' (8 * k) 8

/-- The bytes of a host write into memory, the one for the lowest address first (20_memory.md R65). -/
def laneBytes (e : Endian) (size : Access) (data : BitVec 64) : List Byte :=
  let lanes := (List.range (accessBytes size)).map (laneByte data)
  match e with
  | .little => lanes
  | .big => lanes.reverse

/-- `raise Err(code)`: ERR takes the code and nothing else changes (00_scope.md R12, 60_exceptions.md R170, R178). This is all that
taking an error does: no state is saved, no mode changes, nothing is diverted, and there is no return from it (R179). -/
def raiseErr (code : BitVec 4) (s : State) : State := { s with err := code }

/-- A command written while BUSY = 1: OVR is set and nothing else changes (60_exceptions.md R177). -/
def overrun (s : State) : State := { s with ovr := true }

/-- A command is accepted: the latch holds it, BUSY is 1 and ERR is NONE (60_exceptions.md R171, R178). -/
def accept (l : Latch) (s : State) : State :=
  { s with latch := some l, busy := true, err := errNone, raced := false }

/-- The Engine completes the latched command: BUSY is 0, which empties the latch (10_state.md R41). -/
def complete (s : State) : State :=
  { s with latch := none, busy := false, raced := false }

/-- The next free value (00_scope.md R12 `any`). -/
def freshWord (s : State) : Word := Config.freeWord s.draws

/-- Count `k` free values as drawn. -/
def advanceDraws (k : Nat) (s : State) : State := { s with draws := s.draws + k }

/-- `fault F`: record a model fault for good (00_scope.md R12, 60_exceptions.md R186). -/
def recordFault (f : ModelFault) (s : State) : State := { s with faults := s.faults ++ [f] }

/-- Record the value of a host read (30_encoding.md R90). -/
def recordRead (r : HostRead) (s : State) : State := { s with reads := r :: s.reads }

/-- The reset input: the values of 10_state.md R44. External memory, the model faults and the platform's parameters are kept
(70_reset_and_hazards.md R200), and so are the model's own records of the run. -/
def resetBlock (s : State) : State :=
  { State.reset with
    faults := s.faults
    mem := s.mem
    platform := s.platform
    draws := s.draws
    reads := s.reads
    program := s.program
    schedule := s.schedule }

end Sys2Proof.Machine
end

