-- ==== Sys2Proof/Machine/Reflect.lean ====
section
/-! DEFINITION. The bit-reversal unit and the REFLECT command (40_reflect.md). -/

namespace Sys2Proof.Machine

/-- The loop of 40_reflect.md R100 after its first `k` positions: each set bit i of `v` sets bit n-1-i of the result. -/
def reflectLoop (v : Word) (n : Nat) : Nat → Word
  | 0 => 0
  | k + 1 =>
    if v.getLsbD k then reflectLoop v n k ||| (1#32 <<< (n - 1 - k)) else reflectLoop v n k

/-- `reflect(v, n)`: the low n bits of v in reverse order (40_reflect.md R100). -/
def reflectBits (v : Word) (n : Nat) : Word := reflectLoop v n n

/-- REFLECT n written to CMD (40_reflect.md R102, R104; 60_exceptions.md R177, R180). -/
def execReflect (n : Nat) (s : State) : Host.Outcome State Fault Refusal :=
  if s.busy then .next (overrun s)
  else if 32 < n then .next (raiseErr errArg s)
  else .next (accept (reflectLatch n s) s)

/-- The Engine step of REFLECT: RESULT takes the reversed value (40_reflect.md R102). -/
def performReflect (a : Word) (n : BitVec 6) (s : State) : State :=
  complete { s with result := reflectBits a n.toNat }

end Sys2Proof.Machine
end

