-- ==== Sys2Proof/Machine/Compute.lean ====
section
/-! DEFINITION. The CRC accumulator and the COMPUTE command (42_crc_compute.md). -/

namespace Sys2Proof.Machine

/-- The W-bit entry k of TABLE as the byte step reads it (42_crc_compute.md R144). An entry nothing has written holds unspecified
bits (10_state.md R44); an accepted COMPUTE never meets one (R39). -/
def tableEntry (w : Width) (s : State) (k : Byte) : Word :=
  match s.table.get k.toFin with
  | some v => truncW w v
  | none => truncW w (Config.freeEntry s.draws k)

/-- Input reflection of one byte (42_crc_compute.md R143). -/
def inputByte (refin : Bool) (b : Byte) : Byte :=
  if refin then lowByte (reflectBits (b.setWidth 32) 8) else b

/-- `crc_step(W, T, acc, b)`, the width-specific byte step, with T the table's lookup (42_crc_compute.md R144). -/
def crcStep (w : Width) (t : Byte → Word) (acc : Word) (b : Byte) : Word :=
  match w with
  | .w8 => t (lowByte acc ^^^ b)
  | .w16 => truncW .w16 (acc <<< 8) ^^^ t (lowByte (acc >>> 8) ^^^ b)
  | .w32 => truncW .w32 (acc <<< 8) ^^^ t (lowByte (acc >>> 24) ^^^ b)

/-- The byte loop over the next `len` bytes from address `a`, in ascending order: the accumulator after the last byte, or `none`
as soon as the platform refuses a read (42_crc_compute.md R142, R148). -/
def crcLoop (p : Platform) (m : List Host.Cell) (w : Width) (refin : Bool) (t : Byte → Word) :
    Nat → Nat → Word → Option Word
  | 0, _, acc => some acc
  | len + 1, a, acc =>
    match memRead p m a with
    | none => none
    | some b => crcLoop p m w refin t len (a + 1) (crcStep w t acc (inputByte refin b))

/-- The final XOR and the output reflection over all W bits (42_crc_compute.md R145, R146). -/
def finalValue (w : Width) (refout : Bool) (xorout acc : Word) : Word :=
  if refout then reflectBits (acc ^^^ truncW w xorout) (widthBits w) else acc ^^^ truncW w xorout

/-- COMPUTE written to CMD; the checks run in the order of 60_exceptions.md R180 (42_crc_compute.md R148). -/
def execCompute (s : State) : Host.Outcome State Fault Refusal :=
  if s.busy then .next (overrun s)
  else
    match widthOfCode s.width with
    | none => .next (raiseErr errArg s)
    | some w =>
      if !tableMatches w s then .next (raiseErr errTable s)
      else if !bufferInRange s.daddr s.dlen then .next (raiseErr errRange s)
      else .next (accept (computeLatch w s) s)

/-- The accumulator a latched COMPUTE ends with, or `none` where a byte read is refused (42_crc_compute.md R141 to R144). -/
def computeAcc (w : Width) (refin : Bool) (init addr len : Word) (s : State) : Option Word :=
  crcLoop s.platform s.mem w refin (tableEntry w s) len.toNat addr.toNat (truncW w init)

/-- A COMPUTE ends with a refused read: ERR is BUS, ACC is a free value, RESULT is kept (42_crc_compute.md R150). -/
def computeBusError (s : State) : State :=
  advanceDraws 1 (raiseErr errBus { s with acc := freshWord s })

/-- A COMPUTE ends well: ACC and RESULT (42_crc_compute.md R147). -/
def computeResult (w : Width) (refout : Bool) (xorout acc : Word) (s : State) : State :=
  { s with acc := acc, result := finalValue w refout xorout acc }

/-- The host wrote into the latched buffer: RESULT and ACC are unspecified, two free values (20_memory.md R77, 60_exceptions.md R186;
log entry 6). -/
def computeRaced (s : State) : State :=
  advanceDraws 2 { s with acc := Config.freeWord s.draws, result := Config.freeWord (s.draws + 1) }

/-- The Engine step of COMPUTE (42_crc_compute.md R148). -/
def performCompute (w : Width) (refin refout : Bool) (init xorout addr len : Word) (s : State) : State :=
  let ended :=
    match computeAcc w refin init addr len s with
    | none => computeBusError s
    | some acc => computeResult w refout xorout acc s
  complete (if s.raced then computeRaced ended else ended)

end Sys2Proof.Machine
end

