-- ==== Sys2Proof/Machine/Gentab.lean ====
section
/-! DEFINITION. The table generator and the GENTAB command (41_table_generator.md). -/

namespace Sys2Proof.Machine

/-- One iteration of the division: shift left, and XOR the polynomial in when the top bit was 1 (41_table_generator.md R120). -/
def divideStep (w : Width) (p r : Word) : Word :=
  if r.getLsbD (widthBits w - 1) then truncW w (r <<< 1) ^^^ p else truncW w (r <<< 1)

/-- `k` iterations of the division. -/
def divideLoop (w : Width) (p : Word) : Nat → Word → Word
  | 0, r => r
  | k + 1, r => divideLoop w p k (divideStep w p r)

/-- `gen_entry(W, P, d)`, zero-extended to 32 bits, `p` being the W-bit polynomial (41_table_generator.md R120). -/
def genEntry (w : Width) (p : Word) (d : Byte) : Word :=
  divideLoop w p 8 (truncW w (d.setWidth 32 <<< (widthBits w - 8)))

/-- `gen_table(W, P)`: entry d of every dividend d = 0..255, with P the low W bits of `poly` (41_table_generator.md R122, R124). -/
def genTable (w : Width) (poly : Word) : Vector (Option Word) 256 :=
  Vector.ofFn fun d => some (genEntry w (truncW w poly) (BitVec.ofFin d))

/-- GENTAB written to CMD (41_table_generator.md R123; 60_exceptions.md R173, R177, R180). -/
def execGentab (s : State) : Host.Outcome State Fault Refusal :=
  if s.busy then .next (overrun s)
  else
    match widthOfCode s.width with
    | none => .next (raiseErr errArg s)
    | some w => .next (accept (gentabLatch w s) { s with tvalid := false })

/-- The Engine step of GENTAB: all 256 entries and the tag (41_table_generator.md R124). -/
def performGentab (w : Width) (poly : Word) (s : State) : State :=
  complete { s with table := genTable w poly, twidth := widthCode w, tvalid := true }

end Sys2Proof.Machine
end

