-- ==== Sys2Proof/Machine/Engine.lean ====
section
/-! DEFINITION. The Engine agent: one step performs the whole latched command (10_state.md R41). -/

namespace Sys2Proof.Machine

/-- The latched command performed, reading its operands from the latch alone (10_state.md R40, R41). -/
def perform (l : Latch) (s : State) : State :=
  match l with
  | .gentab w poly => performGentab w poly s
  | .compute w refin refout init xorout addr len => performCompute w refin refout init xorout addr len s
  | .reflect a n => performReflect a n s

/-- The Engine's turn: with BUSY = 1 it performs the latched command; with BUSY = 0 it has no step and nothing changes (10_state.md R41).
BUSY = 1 with an empty latch occurs in no run (R40). -/
def engineTurn (s : State) : State :=
  if s.busy then
    match s.latch with
    | some l => perform l s
    | none => s
  else s

end Sys2Proof.Machine
end

