-- ==== Sys2Proof/Machine/Dispatch.lean ====
section
/-! DEFINITION. One arm per command: its word written to CMD by the host (60_exceptions.md R171). The Engine's share of an
accepted command is in Machine/Engine.lean (R178: an accepted command changes the state twice). -/

namespace Sys2Proof.Machine

def exec (i : Instr) (s : State) : Host.Outcome State Fault Refusal :=
  match i with
  | .gentab => Sys2Proof.Machine.execGentab s
  | .compute => Sys2Proof.Machine.execCompute s
  | .reflect n => Sys2Proof.Machine.execReflect n s

end Sys2Proof.Machine
end

