-- ==== Sys2Proof/Machine/Window.lean ====
section
/-! DEFINITION. The register window: its decoding, the reads, and the writes, the command issue among them
(10_state.md sections 1 to 5, 20_memory.md sections 1 and 2, 60_exceptions.md section 2). -/

namespace Sys2Proof.Machine

/-- The offset of each register (10_state.md R20). -/
def regOffset : Reg → BitVec 11
  | .cfg => 0x000
  | .poly => 0x004
  | .init => 0x008
  | .xorout => 0x00C
  | .daddr => 0x010
  | .dlen => 0x014
  | .opa => 0x018
  | .cmd => 0x01C
  | .status => 0x020
  | .result => 0x024
  | .acc => 0x028

/-- The offset of table entry i (10_state.md R20). -/
def tableOffset (i : Byte) : BitVec 11 := 0x400 + 4 * i.setWidth 11

/-- The bus address of an offset of the window (20_memory.md R61). -/
def windowAddr (p : Platform) (off : BitVec 11) : Word := p.base + off.setWidth 32

/-- The offset a bus address selects, if it lies in the window (20_memory.md R61). -/
def windowOffset (p : Platform) (addr : Word) : Option (BitVec 11) :=
  if (addr - p.base).toNat < Config.windowBytes then some ((addr - p.base).setWidth 11) else none

/-- What a word-aligned offset selects (10_state.md R20, R42). -/
def slotOf (off : BitVec 11) : Slot :=
  if 0x400 ≤ off.toNat then .table (BitVec.ofNat 8 ((off.toNat - 0x400) / 4))
  else
    match off.toNat with
    | 0x000 => .reg .cfg
    | 0x004 => .reg .poly
    | 0x008 => .reg .init
    | 0x00C => .reg .xorout
    | 0x010 => .reg .daddr
    | 0x014 => .reg .dlen
    | 0x018 => .reg .opa
    | 0x01C => .reg .cmd
    | 0x020 => .reg .status
    | 0x024 => .reg .result
    | 0x028 => .reg .acc
    | _ => .unmapped

/-- The only access the window allows: one aligned 32-bit word (20_memory.md R62). -/
def wordAccess (off : BitVec 11) (size : Access) : Bool :=
  size == .word && decide (off.toNat % 4 = 0)

/-- A read that returns a free value (10_state.md R43). -/
def readAny (s : State) : Word × State := (freshWord s, advanceDraws 1 s)

/-- A host read of one register: the value and the state after (10_state.md R22 to R37, R43). -/
def readReg (r : Reg) (s : State) : Word × State :=
  match r with
  | .cfg => (cfgWord s, s)
  | .poly => (s.poly, s)
  | .init => (s.init, s)
  | .xorout => (s.xorout, s)
  | .daddr => (s.daddr, s)
  | .dlen => (s.dlen, s)
  | .opa => (s.opa, s)
  | .cmd => (0, s)
  | .status => (statusWord s, s)
  | .result => if s.busy then readAny s else (s.result, s)
  | .acc => if s.busy then readAny s else (s.acc, s)

/-- A host read of table entry i: exact when TVALID = 1, any value when TVALID = 0 (10_state.md R39, R43). -/
def readTable (i : Byte) (s : State) : Word × State :=
  if s.tvalid then
    match s.table.get i.toFin with
    | some v => (v, s)
    | none => readAny s
  else readAny s

/-- A host read of what an offset selects; unmapped offsets read 0 (10_state.md R42). -/
def readSlot (x : Slot) (s : State) : Word × State :=
  match x with
  | .reg r => readReg r s
  | .unmapped => (0, s)
  | .table i => readTable i s

/-- A host write of `v` to CMD (60_exceptions.md R171): ignored while BUSY = 1 but for OVR (R177), an illegal word reported (R172),
otherwise the command. -/
def issue (v : Word) (s : State) : Host.Outcome State Fault Refusal :=
  if s.busy then .next (overrun s)
  else
    match decode v with
    | .illegal _ => .next (raiseErr errIllegal s)
    | .command i => exec i s

/-- A host write of one register. RESULT and ACC are read-only: the write is ignored (10_state.md R21). -/
def writeReg (r : Reg) (v : Word) (s : State) : Host.Outcome State Fault Refusal :=
  match r with
  | .cfg => .next (writeCfg v s)
  | .poly => .next { s with poly := v }
  | .init => .next { s with init := v }
  | .xorout => .next { s with xorout := v }
  | .daddr => .next { s with daddr := v }
  | .dlen => .next { s with dlen := v }
  | .opa => .next { s with opa := v }
  | .cmd => issue v s
  | .status => .next (writeStatus v s)
  | .result => .next s
  | .acc => .next s

/-- A host write of what an offset selects. TABLE and the unmapped offsets ignore it (10_state.md R39, R42). -/
def writeSlot (x : Slot) (v : Word) (s : State) : Host.Outcome State Fault Refusal :=
  match x with
  | .reg r => writeReg r v s
  | .unmapped => .next s
  | .table _ => .next s

end Sys2Proof.Machine
end

