-- ==== Sys2Proof/Machine/Bus.lean ====
section
/-! DEFINITION. The Host agent's accesses by bus address, external memory included, and one move of the run
(20_memory.md R60 to R65, R71, R77; 30_encoding.md R91; 70_reset_and_hazards.md R200). -/

namespace Sys2Proof.Machine

/-- A write of `n` bytes from `addr` touches some byte of the buffer [baddr, baddr + blen), which an empty buffer does not have
(20_memory.md R77). -/
def touches (addr n baddr blen : Nat) : Bool :=
  decide (0 < blen) && decide (addr < baddr + blen) && decide (baddr < addr + n)

/-- A write of `n` bytes from `addr` races with the Engine: it touches the buffer of a latched COMPUTE while BUSY = 1 (20_memory.md R77). -/
def races (addr : Word) (n : Nat) (s : State) : Bool :=
  s.busy &&
    match s.latch with
    | some (.compute _ _ _ _ _ baddr blen) => touches addr.toNat n baddr.toNat blen.toNat
    | _ => false

/-- The model fault of a race, and the mark that RESULT and ACC will be unspecified (20_memory.md R77, log entry 6). -/
def recordRace (addr : Word) (s : State) : State :=
  recordFault (.bufferRace addr) { s with raced := true }

/-- The Host's `MemWrite`: the bytes, in HOST_ENDIAN order (20_memory.md R60, R65). -/
def storeBytes (addr : Word) (size : Access) (data : BitVec 64) (s : State) : State :=
  { s with mem := memSetList s.mem addr.toNat (laneBytes s.platform.endian size data) }

/-- A host write into external memory, with its race check (20_memory.md R77). Bytes past address 2^32 - 1 do not exist (log entry 5). -/
def memoryWrite (addr : Word) (size : Access) (data : BitVec 64) (s : State) : Host.Outcome State Fault Refusal :=
  if Config.addressSpace < addr.toNat + accessBytes size then .fault (.beyondMemory addr size)
  else .next (storeBytes addr size data (if races addr (accessBytes size) s then recordRace addr s else s))

/-- A host write at a bus address: a register access if the address lies in the window, else a memory write (20_memory.md R60 to R62). -/
def hostWrite (addr : Word) (size : Access) (data : BitVec 64) (s : State) : Host.Outcome State Fault Refusal :=
  match windowOffset s.platform addr with
  | some off =>
    if wordAccess off size then writeSlot (slotOf off) (data.setWidth 32) s
    else .next (recordFault (.badHostAccess off size) s)
  | none => memoryWrite addr size data s

/-- A host read at a bus address. Outside the window it is no access of the block's, and has no value here (log entry 8). -/
def hostRead (addr : Word) (size : Access) (s : State) : State :=
  match windowOffset s.platform addr with
  | some off =>
    if wordAccess off size then
      recordRead ⟨addr, size, some (readSlot (slotOf off) s).1⟩ (readSlot (slotOf off) s).2
    else recordRead ⟨addr, size, none⟩ (recordFault (.badHostAccess off size) s)
  | none => recordRead ⟨addr, size, none⟩ s

/-- One turn of the WAIT loop: read STATUS, and stay in the loop while BUSY reads 1 (30_encoding.md R91). When the Engine steps, and
what falls between two turns, is the schedule's to say (70_reset_and_hazards.md R209). -/
def hostWait (s : State) : State :=
  let s' := hostRead (windowAddr s.platform (regOffset .status)) .word s
  if s.busy then { s' with program := .wait :: s'.program } else s'

/-- One host action. -/
def hostStep (a : HostAction) (s : State) : Host.Outcome State Fault Refusal :=
  match a with
  | .write addr size data => hostWrite addr size data s
  | .read addr size => .next (hostRead addr size s)
  | .wait => .next (hostWait s)

/-- The Host's move: its program's next action; with none left it has no step and nothing changes (30_encoding.md R92). -/
def hostMove (s : State) : Host.Outcome State Fault Refusal :=
  match s.program with
  | [] => .next s
  | a :: acts => hostStep a { s with program := acts }

/-- Who takes the next step: the schedule's head. A finite schedule can delay the Engine for any number of steps and no more: after its
end a pending command gets its Engine step at once, which is the weak fairness of 70_reset_and_hazards.md R209, and with BUSY = 0 the
Host moves (log entry 2). -/
def nextMove (s : State) : Move :=
  match s.schedule with
  | [] => if s.busy then .engine else .host
  | m :: _ => m

/-- The schedule with the next move taken off. -/
def takeMove (s : State) : State := { s with schedule := s.schedule.tail }

/-- One move of the run (20_memory.md R71, 70_reset_and_hazards.md R200). -/
def runMove (m : Move) (s : State) : Host.Outcome State Fault Refusal :=
  match m with
  | .host => hostMove s
  | .engine => .next (engineTurn s)
  | .reset => .next (resetBlock s)

/-- The host action that writes `v` to a register (30_encoding.md R90, `WR`). -/
def writeAction (p : Platform) (r : Reg) (v : Word) : HostAction :=
  .write (windowAddr p (regOffset r)) .word (v.setWidth 64)

/-- The next step of the run is the host writing the low `nbits` bits of `w` to CMD: a command is not fetched, it is the data of
that write (10_state.md R38, 20_memory.md R75). -/
def placeCommand (nbits w : Nat) (s : State) : State :=
  { s with
    program := writeAction s.platform .cmd (BitVec.ofNat 32 (w % 2 ^ nbits)) :: s.program
    schedule := .host :: s.schedule }

end Sys2Proof.Machine
end

