-- ==== Sys2Proof/Machine/Script.lean ====
section
/-! DEFINITION. The host-script forms and the pseudo-instructions with their exact expansions (30_encoding.md R89 to R92). -/

namespace Sys2Proof.Machine

/-- `WR <REG>, <imm32>` (30_encoding.md R90). -/
def scriptWr (p : Platform) (r : Reg) (v : Word) : List HostAction := [writeAction p r v]

/-- `RD <REG>` (30_encoding.md R90). -/
def scriptRd (p : Platform) (r : Reg) : List HostAction := [.read (windowAddr p (regOffset r)) .word]

/-- `RD TABLE[i]` (30_encoding.md R90). -/
def scriptRdTable (p : Platform) (i : Byte) : List HostAction := [.read (windowAddr p (tableOffset i)) .word]

/-- `MB <addr>, b0, b1, ...`: one byte write each, at rising addresses (30_encoding.md R90). Where addr + k passes 2^32 - 1 the spec does
not say what byte k does; here the sum is a 32-bit address, so the byte goes to address addr + k - 2^32. DESIGN CHOICE, log entry 17. -/
def scriptMb (addr : Word) : List Byte → List HostAction
  | [] => []
  | b :: bs => .write addr .byte (b.setWidth 64) :: scriptMb (addr + 1) bs

/-- The assembler: a command's word, refused when the value of its count's literal does not fit the field (30_encoding.md R89). -/
def assemble (i : Instr) : Option Word := if i.wellFormed then some (encode i) else none

/-- A command mnemonic: one write of its word to CMD; a line that the assembler refuses is no host action (30_encoding.md R89). -/
def scriptCommand (p : Platform) (i : Instr) : Option (List HostAction) := (assemble i).map (scriptWr p .cmd)

/-- `WAIT` (30_encoding.md R91). -/
def scriptWait : List HostAction := [.wait]

/-- `SETUP cfg, poly, init, xorout` (30_encoding.md R91). -/
def scriptSetup (p : Platform) (cfg poly init xorout : Word) : List HostAction :=
  scriptWr p .cfg cfg ++ scriptWr p .poly poly ++ scriptWr p .init init ++ scriptWr p .xorout xorout

/-- `CRC addr, len` (30_encoding.md R91). -/
def scriptCrc (p : Platform) (addr len : Word) : Option (List HostAction) := do
  let command ← scriptCommand p .compute
  return scriptWr p .daddr addr ++ scriptWr p .dlen len ++ command ++ scriptWait

/-- `REFL value, n`; refused where `REFLECT n` is (30_encoding.md R89, R91). -/
def scriptRefl (p : Platform) (value : Word) (n : Nat) : Option (List HostAction) := do
  let command ← scriptCommand p (.reflect n)
  return scriptWr p .opa value ++ command ++ scriptWait

/-- `BUILD` (30_encoding.md R91). -/
def scriptBuild (p : Platform) : Option (List HostAction) := do
  let command ← scriptCommand p .gentab
  return command ++ scriptWait

/-- `CLROVR` (30_encoding.md R91). -/
def scriptClrovr (p : Platform) : List HostAction := scriptWr p .status 0x00000100

/-- The four named presets, reference data that the block does not store (00_scope.md R13). -/
inductive Preset where
  | crc8SaeJ1850
  | crc8H2F
  | crc16CcittFalse
  | crc32Ethernet
  deriving DecidableEq, Repr

/-- The CFG word, POLY, INIT and XOROUT of a preset (00_scope.md R13). -/
def presetWords : Preset → Word × Word × Word × Word
  | .crc8SaeJ1850 => (0x00000000, 0x0000001D, 0x000000FF, 0x000000FF)
  | .crc8H2F => (0x00000000, 0x0000002F, 0x000000FF, 0x000000FF)
  | .crc16CcittFalse => (0x00000001, 0x00001021, 0x0000FFFF, 0x00000000)
  | .crc32Ethernet => (0x0000000E, 0x04C11DB7, 0xFFFFFFFF, 0xFFFFFFFF)

/-- SETUP of a preset (00_scope.md R13, 30_encoding.md R91). -/
def scriptPreset (p : Platform) (x : Preset) : List HostAction :=
  scriptSetup p (presetWords x).1 (presetWords x).2.1 (presetWords x).2.2.1 (presetWords x).2.2.2

/-- What software does before the first COMPUTE: CFG and POLY, GENTAB, WAIT, and a read of STATUS to check it
(70_reset_and_hazards.md R203). -/
def scriptBoot (p : Platform) (cfg poly : Word) : Option (List HostAction) := do
  let build ← scriptBuild p
  return scriptWr p .cfg cfg ++ scriptWr p .poly poly ++ build ++ scriptRd p .status

/-- What software does for each buffer: its bytes, the operands, COMPUTE, WAIT, the check of STATUS, and RESULT
(70_reset_and_hazards.md R203). -/
def scriptBuffer (p : Platform) (init xorout addr : Word) (bytes : List Byte) : Option (List HostAction) := do
  let crc ← scriptCrc p addr (BitVec.ofNat 32 bytes.length)
  return scriptMb addr bytes ++ scriptWr p .init init ++ scriptWr p .xorout xorout ++
    crc ++ scriptRd p .status ++ scriptRd p .result

/-- A program, the list of its host actions in order, put before the actions still to come (30_encoding.md R92). -/
def loadScript (acts : List HostAction) (s : State) : State := { s with program := acts ++ s.program }

end Sys2Proof.Machine
end

