-- ==== Sys2Proof/Safety.lean ====
section
/-! DEFINITION. What counts as a sound state, a clean run and a final run. -/

namespace Sys2Proof.Machine

/-- The latch holds what an acceptance can have put there, and agrees with the table tag (10_state.md R33, R40; 20_memory.md R68, R78). -/
def latchSound (s : State) : Latch → Bool
  | .gentab _ _ => !s.tvalid
  | .compute w _ _ _ _ addr len => tableMatches w s && bufferInRange addr len
  | .reflect _ n => decide (n.toNat ≤ 32)

/-- Every entry of TABLE is written and has zeros above bit W-1 (10_state.md R39). -/
def tableSound (w : Width) (t : Vector (Option Word) 256) : Prop :=
  ∀ i : Byte, ∃ v, t.get i.toFin = some v ∧ truncW w v = v

/-- The state is one that the rules can leave behind. -/
structure State.Inv (s : State) : Prop where
  /-- The latch is present exactly when BUSY = 1 (10_state.md R40, R45). -/
  latch_iff_busy : s.latch.isSome = s.busy
  /-- The latched command's operands passed their checks, and the table tag suits it. -/
  latch_sound : ∀ l, s.latch = some l → latchSound s l = true
  /-- ERR is never 6..15 (10_state.md R34). -/
  err_named : s.err.toNat ≤ 5
  /-- A running command has cleared ERR (10_state.md R34; 60_exceptions.md R178). -/
  err_clear_while_busy : s.busy = true → s.err = errNone
  /-- With TVALID = 1 the tag names a width and TABLE is a complete table of it (10_state.md R33, R39). -/
  table_complete : s.tvalid = true → ∃ w, widthOfCode s.twidth = some w ∧ tableSound w s.table
  /-- Memory is in canonical form. -/
  memory_canonical : memWf s.mem = true
  /-- The platform's parameters are ones the spec allows (20_memory.md R61). -/
  platform_ok : s.platform.wellFormed = true
  /-- Only a latched COMPUTE can have been raced, and a race is on record (20_memory.md R77). -/
  race_recorded : s.raced = true →
    (∃ addr, ModelFault.bufferRace addr ∈ s.faults) ∧
      ∃ w ri ro i x a n, s.latch = some (.compute w ri ro i x a n)

/-- No model fault has been recorded (60_exceptions.md R186). -/
def State.clean (s : State) : Bool := s.faults.isEmpty

/-- The run is final: no host action left, so no WAIT pending, BUSY = 0, and no model fault (70_reset_and_hazards.md R213). -/
def State.final (s : State) : Bool :=
  s.program.isEmpty && !s.busy && s.clean

/-- The Engine moves in the next step (10_state.md R41, 70_reset_and_hazards.md R209). -/
def engineMoves (s : State) : Bool := nextMove s == .engine

/-- The reset input is asserted in the next step (70_reset_and_hazards.md R200). -/
def resetMoves (s : State) : Bool := nextMove s == .reset

/-- The host action of the next step, if that step is the Host's and it has an action left (20_memory.md R71). -/
def nextAction (s : State) : Option HostAction := if nextMove s = .host then s.program.head? else none

/-- The state as the next step's host action finds it: the move and the action taken off. -/
def takeAction (s : State) : State := { takeMove s with program := s.program.tail }

/-- The word the next step writes to register `r`, if that is what the next step is (20_memory.md R61, R62). -/
def nextRegWrite (r : Reg) (s : State) : Option Word :=
  match nextAction s with
  | some (.write addr .word data) =>
    if windowOffset s.platform addr = some (regOffset r) then some (data.setWidth 32) else none
  | _ => none

/-- The host write into external memory that the next step is, if it is one: its address, size and data (20_memory.md R60). -/
def nextMemWrite (s : State) : Option (Word × Access × BitVec 64) :=
  match nextAction s with
  | some (.write addr size data) => if windowOffset s.platform addr = none then some (addr, size, data) else none
  | _ => none

/-- A command word is illegal: the four conditions of 30_encoding.md R87, on the bits of the word. -/
def illegalWord (v : Word) : Bool :=
  (v.extractLsb' 0 4 == 0 || decide (4 ≤ (v.extractLsb' 0 4).toNat)) ||
  v.extractLsb' 4 4 != 0 ||
  v.extractLsb' 14 18 != 0 ||
  ((v.extractLsb' 0 4 == 1 || v.extractLsb' 0 4 == 2) && v.extractLsb' 8 6 != 0)

/-- The error code of the first condition of 60_exceptions.md R180, rows 2 to 5, that holds for a word written to CMD. -/
def firstError (v : Word) (s : State) : Option (BitVec 4) :=
  if illegalWord v then some 1
  else if v.extractLsb' 0 4 == 3 && decide (32 < (v.extractLsb' 8 6).toNat) then some 2
  else if v.extractLsb' 0 4 != 3 && s.width == 3 then some 2
  else if v.extractLsb' 0 4 == 2 && (!s.tvalid || s.twidth != s.width) then some 3
  else if v.extractLsb' 0 4 == 2 && decide (0 < s.dlen.toNat) && decide (4294967296 < s.daddr.toNat + s.dlen.toNat) then some 4
  else none

/-- `k` steps in a row, stopping at the first that answers no next state. -/
def runSteps : Nat → State → Host.Outcome State Fault Refusal
  | 0, s => .next s
  | k + 1, s =>
    match step s with
    | .next t => runSteps k t
    | .fault r => .fault r
    | .refused r => .refused r

/-- The bytes of a buffer in ascending address order (20_memory.md R64). -/
def bufferBytes (m : List Host.Cell) (addr len : Nat) : List Byte :=
  (List.range len).map fun i => memByte m (addr + i)

/-- Every byte of a buffer may be read (20_memory.md R63). -/
def bufferAdmitted (p : Platform) (addr len : Nat) : Prop :=
  ∀ i, i < len → memAdmit p (addr + i) = true

/-- CRC of one byte without a table: the byte enters at the top of the accumulator, and eight iterations of the polynomial division
follow (00_scope.md glossary, table-driven computation; 41_table_generator.md R120). -/
def bitwiseStep (w : Width) (p acc : Word) (b : Byte) : Word :=
  divideLoop w p 8 (acc ^^^ (b.setWidth 32 <<< (widthBits w - 8)))

/-- CFG and the operand registers are the same in both states (10_state.md R22 to R29). -/
structure SameOperands (s t : State) : Prop where
  width : t.width = s.width
  refin : t.refin = s.refin
  refout : t.refout = s.refout
  poly : t.poly = s.poly
  init : t.init = s.init
  xorout : t.xorout = s.xorout
  daddr : t.daddr = s.daddr
  dlen : t.dlen = s.dlen
  opa : t.opa = s.opa

/-- Everything outside the block, and the records of the run, are the same in both states: every byte of memory, the platform's
parameters, the model faults, the reads, and the program and schedule still to come. -/
structure SameSurroundings (s t : State) : Prop where
  memory : ∀ a, memByte t.mem a = memByte s.mem a
  platform : t.platform = s.platform
  faults : t.faults = s.faults
  reads : t.reads = s.reads
  program : t.program = s.program
  schedule : t.schedule = s.schedule

end Sys2Proof.Machine
end

