-- ==== Sys2Proof/Certificates/Slice0/Obligations.lean ====
section
/-! DEFINITION. What is claimed of the block, rule by rule. Every claim about a free value holds for every value it may have. -/

open Sys2Proof Sys2Proof.Machine

/-! ### The command word -/

/-- Every command that has a word is read back from it, with REFLECT's count at each of its 64 values (30_encoding.md R83 to R88). -/
def Obligations.DecodeOfEncodeIsTheCommand : Prop :=
  ∀ i : Instr, i.wellFormed = true → decode (encode i) = .command i

/-- No two words mean the same command, and decoding gives a command that can be assembled (30_encoding.md R83, R89). -/
def Obligations.EncodeOfDecodeIsTheWord : Prop :=
  ∀ (v : Word) (i : Instr), decode v = .command i → encode i = v ∧ i.wellFormed = true

/-- The decoder accepts exactly the words of the three rows of the command map, by match and mask (30_encoding.md R83). -/
def Obligations.CommandRowsByMatchAndMask : Prop :=
  ∀ v : Word,
    (decode v = .command .gentab ↔ v &&& 0xFFFFFFFF = 0x00000001) ∧
    (decode v = .command .compute ↔ v &&& 0xFFFFFFFF = 0x00000002) ∧
    (∀ n, decode v = .command (.reflect n) ↔ v &&& 0xFFFFC0FF = 0x00000003 ∧ v.toNat / 256 % 64 = n)

/-- A word is illegal exactly under the four conditions, which is outside the three rows; issued while BUSY = 0 it sets ERR = ILLEGAL and
changes nothing else; the zero word is illegal (30_encoding.md R87). -/
def Obligations.IllegalWordsAreReported : Prop :=
  (∀ v : Word,
    (illegalWord v = true ↔ ∃ why, decode v = .illegal why) ∧
    (illegalWord v = true ↔ ¬ (v = 0x00000001 ∨ v = 0x00000002 ∨ v &&& 0xFFFFC0FF = 0x00000003))) ∧
  (∀ (v : Word) (s : State), illegalWord v = true → s.busy = false → issue v s = .next { s with err := 1 }) ∧
  illegalWord 0x00000000 = true

/-- A few words of 95_test_vectors.md section 2.4, read as the spec reads them. -/
def Obligations.SpecWordsDecode : Prop :=
  decode 0x00000001 = .command .gentab ∧ decode 0x00000002 = .command .compute ∧
  decode 0x00000003 = .command (.reflect 0) ∧ decode 0x00000803 = .command (.reflect 8) ∧
  decode 0x00002003 = .command (.reflect 32) ∧ decode 0x00003F03 = .command (.reflect 63) ∧
  decode 0x00000101 = .illegal .strayCount ∧ decode 0x00000013 = .illegal .reservedBits ∧
  decode 0x00004003 = .illegal .reservedBits ∧ decode 0x00000004 = .illegal .reservedOp

/-! ### Issuing a command -/

/-- A step of the Host whose action writes a word to CMD is the issue of that word, whatever the word, on the state with that action taken
off; where the word is a command's, that is `exec` of the command; and `withFetchWord` places a word so (60_exceptions.md R171,
10_state.md R38). -/
def Obligations.StepRunsTheIssuedCommand : Prop :=
  (∀ (s : State) (v : Word), nextAction s = some (writeAction s.platform .cmd v) → step s = issue v (takeAction s)) ∧
  (∀ (s : State) (v : Word) (i : Instr), nextAction s = some (writeAction s.platform .cmd v) → decode v = .command i →
    step s = exec i (takeAction s)) ∧
  (∀ (s : State) (v : Word), step (s.withFetchWord 32 v.toNat) = issue v s) ∧
  (∀ (s : State) (i : Instr), i.wellFormed = true → step (s.withFetchWord 32 (encode i).toNat) = exec i s)

/-- A word written to CMD while BUSY = 1 sets OVR and does nothing else, whatever the word; the running command is not affected; and OVR
goes back to 0 only by a write to STATUS with bit 8 = 1 or by reset (60_exceptions.md R177). -/
def Obligations.CommandWhileBusyIsIgnored : Prop :=
  (∀ (s : State) (v : Word), s.busy = true → issue v s = .next { s with ovr := true }) ∧
  (∀ (s : State) (i : Instr), s.busy = true → exec i s = .next { s with ovr := true }) ∧
  (∀ s : State, engineTurn { s with ovr := true } = { engineTurn s with ovr := true }) ∧
  (∀ s t : State, step s = .next t → s.ovr = true → t.ovr = false →
    resetMoves s = true ∨ ∃ v, nextRegWrite .status s = some v ∧ v.getLsbD 8 = true)

/-- The order of the checks: only the first condition that holds is reported; with none, the command is accepted. The last row is the
Engine step: with a refused byte read it ends with ERR = 5 (60_exceptions.md R180). -/
def Obligations.FirstErrorIsReported : Prop :=
  (∀ (s : State) (v : Word), s.busy = true → issue v s = .next { s with ovr := true }) ∧
  (∀ (s : State) (v : Word) (code : BitVec 4), s.busy = false → firstError v s = some code →
    issue v s = .next { s with err := code }) ∧
  (∀ (s : State) (v : Word), s.busy = false → firstError v s = none →
    ∃ t, issue v s = .next t ∧ t.busy = true ∧ t.latch.isSome = true ∧ t.err = 0) ∧
  (∀ (s : State) (w : Width) (ri ro : Bool) (i x a n : Word), s.busy = true →
    s.latch = some (.compute w ri ro i x a n) → ¬ bufferAdmitted s.platform a.toNat n.toNat → (engineTurn s).err = 5)

/-- What a command written to CMD leaves alone, whenever it answers a next state: the operand registers, TABLE, TWIDTH, RESULT, ACC, every byte of
memory and all that lies outside the block; TVALID but for GENTAB; OVR while BUSY = 0; and only ERR changes where BUSY stays 0
(60_exceptions.md R170, R171, R178). -/
def Obligations.CommandFrame : Prop :=
  ∀ (i : Instr) (s t : State), exec i s = .next t →
    SameOperands s t ∧ SameSurroundings s t ∧
    t.table = s.table ∧ t.twidth = s.twidth ∧ t.result = s.result ∧ t.acc = s.acc ∧ t.draws = s.draws ∧
    (i ≠ .gentab → t.tvalid = s.tvalid) ∧
    (s.busy = false → t.ovr = s.ovr) ∧
    (t.busy = false → t = { s with err := t.err })

/-! ### REFLECT -/

/-- Bit j of `reflect(v, n)` is bit n-1-j of v below position n, and 0 from there on (40_reflect.md R100). -/
def Obligations.ReflectMirrorsTheLowBits : Prop :=
  ∀ (v : Word) (n j : Nat), n ≤ 32 → j < 32 →
    (reflectBits v n).getLsbD j = if j < n then v.getLsbD (n - 1 - j) else false

/-- The corner cases of `reflect`, the involution among them (40_reflect.md R101, whose last three the spec marks as derived from R100). -/
def Obligations.ReflectCornerCases : Prop :=
  (∀ v, reflectBits v 0 = 0) ∧
  (∀ v n, n ≤ 32 → reflectBits v n = reflectBits (BitVec.ofNat 32 (v.toNat % 2 ^ n)) n) ∧
  (∀ v n, n ≤ 32 → (reflectBits v n).toNat < 2 ^ n) ∧
  (∀ v, reflectBits v 1 = if v.getLsbD 0 then 1 else 0) ∧
  (∀ v, reflectBits v 32 = v.reverse) ∧ reflectBits 0x00000001 32 = 0x80000000 ∧
  (∀ v n, n ≤ 32 → v.toNat < 2 ^ n → reflectBits (reflectBits v n) n = v)

/-- REFLECT n with n up to 32, issued while BUSY = 0, is accepted, and its Engine step leaves `reflect(OPA, n)` in RESULT
(40_reflect.md R102, 10_state.md R41). -/
def Obligations.ReflectCompletes : Prop :=
  ∀ (s : State) (n : Nat), s.busy = false → n ≤ 32 →
    ∃ t, exec (.reflect n) s = .next t ∧
      t = { s with latch := some (.reflect s.opa (BitVec.ofNat 6 n)), busy := true, err := 0, raced := false } ∧
      engineTurn t =
        { s with result := reflectBits s.opa n, err := 0, latch := none, busy := false, raced := false }

/-- REFLECT with N in 33..63, issued while BUSY = 0, sets ERR = 2 and changes nothing else (40_reflect.md R104). -/
def Obligations.ReflectCountOutOfRange : Prop :=
  ∀ (s : State) (n : Nat), s.busy = false → 33 ≤ n → n ≤ 63 → exec (.reflect n) s = .next { s with err := 2 }

/-- The host-script line REFL value, n followed by a read of RESULT, run from BUSY = 0 under any schedule that has no reset in it: the run
comes to its end, and the read returns `reflect(value, n)` with ERR = 0, wherever the Engine's step falls (30_encoding.md R91, 20_memory.md
R72). That the run comes to its end rests on weak fairness (70_reset_and_hazards.md R209) in the form the model chose for it: after its
finite schedule the Engine moves while BUSY = 1, and the Host otherwise (log entry 2). -/
def Obligations.ReflectScriptReadsItsResult : Prop :=
  ∀ (s : State) (value : Word) (n : Nat) (line rest : List HostAction), s.busy = false → n ≤ 32 →
    scriptRefl s.platform value n = some line → s.program = line ++ scriptRd s.platform .result ++ rest →
    Move.reset ∉ s.schedule →
    ∃ (k : Nat) (t : State), runSteps k s = .next t ∧ t.program = rest ∧ t.busy = false ∧ t.err = 0 ∧
      t.reads.head? = some ⟨windowAddr s.platform (regOffset .result), .word, some (reflectBits value n)⟩

/-! ### GENTAB -/

/-- The properties of every generated table: entries 0 and 1, the zero polynomial, linearity, and only the low W bits of the polynomial
matter. The spec marks these as derived from R120 and R122 (41_table_generator.md R126). -/
def Obligations.TableProperties : Prop :=
  (∀ w p, genEntry w p 0 = 0) ∧
  (∀ w p, truncW w p = p → genEntry w p 1 = p) ∧
  (∀ w d, genEntry w 0 d = 0) ∧
  (∀ w p a b, genEntry w p (a ^^^ b) = genEntry w p a ^^^ genEntry w p b) ∧
  (∀ w p q, truncW w p = truncW w q → genTable w p = genTable w q)

/-- Entry d of a generated table is the W-bit remainder of dividend d, zero-extended (10_state.md R39, 41_table_generator.md R122, R124). -/
def Obligations.TableEntryIsItsRemainder : Prop :=
  ∀ (w : Width) (poly : Word) (d : Byte),
    (genTable w poly).get d.toFin = some (genEntry w (truncW w poly) d) ∧
    truncW w (genEntry w (truncW w poly) d) = genEntry w (truncW w poly) d

/-- GENTAB, issued while BUSY = 0 with a legal width, is accepted with TVALID = 0, and its Engine step writes the table of POLY and its tag
(41_table_generator.md R123, R124). -/
def Obligations.GentabCompletes : Prop :=
  ∀ (s : State) (w : Width), s.busy = false → s.width = widthCode w →
    ∃ t, exec .gentab s = .next t ∧
      t = { s with latch := some (.gentab w s.poly), tvalid := false, busy := true, err := 0, raced := false } ∧
      engineTurn t =
        { s with table := genTable w s.poly, twidth := s.width, tvalid := true, err := 0,
                 latch := none, busy := false, raced := false }

/-- ERR = ARG has its two causes, REFLECT with N in 33..63, and GENTAB or COMPUTE while CFG.WIDTH = 3 (60_exceptions.md R173). -/
def Obligations.ArgumentErrors : Prop :=
  (∀ (s : State) (n : Nat), s.busy = false → 33 ≤ n → n ≤ 63 →
    issue (encode (.reflect n)) s = .next { s with err := 2 }) ∧
  (∀ s : State, s.busy = false → s.width = 3 →
    exec .gentab s = .next { s with err := 2 } ∧ exec .compute s = .next { s with err := 2 }) ∧
  (∀ (s t : State) (v : Word), issue v s = .next t → s.busy = false → s.err ≠ 2 → t.err = 2 →
    (∃ n, 33 ≤ n ∧ n ≤ 63 ∧ v = encode (.reflect n)) ∨
    ((v = encode .gentab ∨ v = encode .compute) ∧ s.width = 3))

/-- Only the Engine completing a GENTAB writes TABLE, and it writes the whole table of the latched polynomial; reset leaves it unspecified with
TVALID = 0 (10_state.md R39, R44; 41_table_generator.md R125). -/
def Obligations.OnlyGentabWritesTheTable : Prop :=
  ∀ s t : State, step s = .next t → t.table ≠ s.table →
    (engineMoves s = true ∧ s.busy = true ∧
      ∃ w p, s.latch = some (.gentab w p) ∧ t.table = genTable w p ∧ t.tvalid = true ∧ t.twidth = widthCode w) ∨
    (resetMoves s = true ∧ t.tvalid = false)

/-- The table tag: accepting a GENTAB clears TVALID and keeps TWIDTH, completing it sets both, nothing else (a rejected GENTAB included) but
reset changes them, and
TWIDTH always reads back its stored value (10_state.md R33). -/
def Obligations.TableTagRule : Prop :=
  (∀ (s : State) (w : Width), s.busy = false → s.width = widthCode w →
    ∃ t, exec .gentab s = .next t ∧ t.tvalid = false ∧ t.twidth = s.twidth) ∧
  (∀ (s : State) (w : Width) (p : Word), s.busy = true → s.latch = some (.gentab w p) →
    (engineTurn s).tvalid = true ∧ (engineTurn s).twidth = widthCode w) ∧
  (∀ s t : State, step s = .next t → t.tvalid ≠ s.tvalid ∨ t.twidth ≠ s.twidth →
    (s.busy = false ∧ s.width ≠ 3 ∧ nextRegWrite .cmd s = some (encode .gentab) ∧ t.busy = true) ∨
    (engineMoves s = true ∧ s.busy = true ∧ ∃ w p, s.latch = some (.gentab w p)) ∨
    resetMoves s = true) ∧
  (∀ s : State, (statusWord s).extractLsb' 2 2 = s.twidth)

/-! ### COMPUTE -/

/-- The byte step of every width has one form, which the spec marks as derived from R144 (42_crc_compute.md R152). -/
def Obligations.ByteStepHasOneForm : Prop :=
  (∀ (w : Width) (t : Byte → Word) (acc : Word) (b : Byte),
    crcStep w t acc b =
      truncW w (acc <<< 8) ^^^ t (lowByte (acc >>> (widthBits w - 8)) ^^^ b)) ∧
  (∀ (t : Byte → Word) (acc : Word) (b : Byte),
    truncW .w8 (acc <<< 8) = 0 ∧ crcStep .w8 t acc b = t (lowByte acc ^^^ b))

/-- COMPUTE, issued while BUSY = 0 with a table of the width in CFG and a buffer in range, is accepted, and where the platform admits every
byte of the buffer its Engine step leaves the accumulator after the last byte in ACC and the final value in RESULT (42_crc_compute.md R148). -/
def Obligations.ComputeCompletes : Prop :=
  ∀ (s : State) (w : Width), s.busy = false → s.width = widthCode w → s.tvalid = true → s.twidth = s.width →
    (s.dlen = 0 ∨ s.daddr.toNat + s.dlen.toNat ≤ 4294967296) →
    ∃ t, exec .compute s = .next t ∧
      t = { s with latch := some (.compute w s.refin s.refout s.init s.xorout s.daddr s.dlen),
                   busy := true, err := 0, raced := false } ∧
      (bufferAdmitted s.platform s.daddr.toNat s.dlen.toNat →
        ∀ acc, acc = (bufferBytes s.mem s.daddr.toNat s.dlen.toNat).foldl
            (fun a b => crcStep w (tableEntry w s) a (inputByte s.refin b)) (truncW w s.init) →
          engineTurn t =
            { s with acc := acc,
                     result := (if s.refout then reflectBits (acc ^^^ truncW w s.xorout) (widthBits w)
                                else acc ^^^ truncW w s.xorout),
                     err := 0, latch := none, busy := false, raced := false })

/-- A zero-length COMPUTE reads no memory and leaves INIT in ACC and INIT XOR XOROUT, reflected or not, in RESULT; it still needs a
valid table of the width (42_crc_compute.md R149). -/
def Obligations.ComputeOfEmptyBuffer : Prop :=
  (∀ (s : State) (w : Width) (ri ro : Bool) (i x a : Word), s.busy = true → s.raced = false →
    s.latch = some (.compute w ri ro i x a 0) →
    engineTurn s =
      { s with acc := truncW w i,
               result := (if ro then reflectBits (truncW w i ^^^ truncW w x) (widthBits w) else truncW w i ^^^ truncW w x),
               latch := none, busy := false }) ∧
  (∀ s : State, s.busy = false → s.width ≠ 3 → s.dlen = 0 → (s.tvalid = false ∨ s.twidth ≠ s.width) →
    exec .compute s = .next { s with err := 3 })

/-- A refused byte read ends the COMPUTE with ERR = 5 and ACC a free value; RESULT, TABLE and the tag keep their values (42_crc_compute.md R150). -/
def Obligations.ComputeBusError : Prop :=
  ∀ (s : State) (w : Width) (ri ro : Bool) (i x a n : Word), s.busy = true → s.raced = false →
    s.latch = some (.compute w ri ro i x a n) →
    (∃ k, k < n.toNat ∧ memAdmit s.platform (a.toNat + k) = false) →
    engineTurn s =
      { s with err := 5, acc := Config.freeWord s.draws, draws := s.draws + 1, latch := none, busy := false }

/-- Two COMPUTEs that end well and agree in the latched width, flags, low W bits of INIT and XOROUT, buffer bytes and TABLE give the same
ACC and RESULT, whatever POLY, OPA and the old ACC and RESULT were. The spec marks this as derived from R148 (42_crc_compute.md R151). -/
def Obligations.ComputeDependsOnlyOnItsInputs : Prop :=
  ∀ (s₁ s₂ : State) (w : Width) (ri ro : Bool) (i₁ i₂ x₁ x₂ a₁ a₂ n : Word),
    s₁.busy = true → s₂.busy = true → s₁.raced = false → s₂.raced = false →
    s₁.latch = some (.compute w ri ro i₁ x₁ a₁ n) → s₂.latch = some (.compute w ri ro i₂ x₂ a₂ n) →
    truncW w i₁ = truncW w i₂ → truncW w x₁ = truncW w x₂ →
    bufferBytes s₁.mem a₁.toNat n.toNat = bufferBytes s₂.mem a₂.toNat n.toNat →
    bufferAdmitted s₁.platform a₁.toNat n.toNat → bufferAdmitted s₂.platform a₂.toNat n.toNat →
    s₁.table = s₂.table → (∀ k, (s₁.table.get k).isSome = true) →
    (engineTurn s₁).acc = (engineTurn s₂).acc ∧ (engineTurn s₁).result = (engineTurn s₂).result

/-- What a table lookup does in one byte step is what eight iterations of the polynomial division do (00_scope.md glossary,
41_table_generator.md R120, 42_crc_compute.md R144). -/
def Obligations.TableStepIsTheDivision : Prop :=
  ∀ (w : Width) (p acc : Word) (b : Byte),
    crcStep w (fun k => genEntry w (truncW w p) k) acc b = bitwiseStep w (truncW w p) acc b

/-- GENTAB and then COMPUTE on the same width: the CRC in ACC is the bit-by-bit division of the buffer by POLY, and RESULT its final value
(41_table_generator.md R124, 42_crc_compute.md R148). -/
def Obligations.GentabThenComputeDividesTheBuffer : Prop :=
  ∀ (s : State) (w : Width), s.busy = false → s.width = widthCode w →
    (s.dlen = 0 ∨ s.daddr.toNat + s.dlen.toNat ≤ 4294967296) →
    bufferAdmitted s.platform s.daddr.toNat s.dlen.toNat →
    ∃ t u, exec .gentab s = .next t ∧ exec .compute (engineTurn t) = .next u ∧
      (engineTurn u).busy = false ∧ (engineTurn u).err = 0 ∧
      (engineTurn u).acc = (bufferBytes s.mem s.daddr.toNat s.dlen.toNat).foldl
        (fun a b => bitwiseStep w (truncW w s.poly) a (inputByte s.refin b)) (truncW w s.init) ∧
      (engineTurn u).result = finalValue w s.refout s.xorout (engineTurn u).acc

/-- With an all-zero 8-bit table, which GENTAB straight after reset builds, a non-empty buffer leaves ACC = 0 and RESULT = XOROUT, reflected or
not, whatever INIT is. So INIT XOR XOROUT, the value 70_reset_and_hazards.md R204 gives for every buffer, is RESULT where the low 8 bits of
INIT are 0, as reset leaves them, and for the empty buffer. The model follows 42_crc_compute.md R144 (log entry 9). -/
def Obligations.ZeroTableForgetsInit : Prop :=
  (∃ t, exec .gentab State.reset = .next t ∧ (engineTurn t).table = Vector.replicate 256 (some 0)) ∧
  (∀ (s : State) (ri ro : Bool) (i x a n : Word), s.busy = true → s.raced = false →
    s.latch = some (.compute .w8 ri ro i x a n) → s.table = Vector.replicate 256 (some 0) →
    bufferAdmitted s.platform a.toNat n.toNat →
    (0 < n.toNat → (engineTurn s).acc = 0 ∧
      (engineTurn s).result = if ro then reflectBits (truncW .w8 x) 8 else truncW .w8 x) ∧
    (n.toNat = 0 ∨ truncW .w8 i = 0 → (engineTurn s).acc = truncW .w8 i ∧
      (engineTurn s).result = if ro then reflectBits (truncW .w8 (i ^^^ x)) 8 else truncW .w8 (i ^^^ x)))

/-- While a COMPUTE is latched the table is complete and host reads of it are exact, and no step but reset changes TVALID or an entry
(20_memory.md R78). -/
def Obligations.TableIsReadableDuringCompute : Prop :=
  ∀ (s : State) (w : Width) (ri ro : Bool) (i x a n : Word), s.Inv → s.latch = some (.compute w ri ro i x a n) →
    s.tvalid = true ∧
    (∀ k : Byte, ∃ v, s.table.get k.toFin = some v ∧ readTable k s = (v, s)) ∧
    (∀ t, step s = .next t → resetMoves s = false → t.tvalid = true ∧ t.table = s.table)

/-- What the Engine's turn leaves alone: the operand registers, OVR and everything outside the block; for REFLECT also ACC, TABLE, the tag and ERR, for
GENTAB RESULT, ACC and ERR, for COMPUTE TABLE and the tag (40_reflect.md R102, 41_table_generator.md R123, 42_crc_compute.md R148). -/
def Obligations.EngineFrame : Prop :=
  ∀ s : State,
    SameOperands s (engineTurn s) ∧ SameSurroundings s (engineTurn s) ∧ (engineTurn s).ovr = s.ovr ∧
    (∀ a n, s.latch = some (.reflect a n) →
      (engineTurn s).acc = s.acc ∧ (engineTurn s).table = s.table ∧ (engineTurn s).tvalid = s.tvalid ∧
      (engineTurn s).twidth = s.twidth ∧ (engineTurn s).err = s.err ∧ (engineTurn s).draws = s.draws) ∧
    (∀ w p, s.latch = some (.gentab w p) →
      (engineTurn s).result = s.result ∧ (engineTurn s).acc = s.acc ∧ (engineTurn s).err = s.err ∧
      (engineTurn s).draws = s.draws) ∧
    (∀ w ri ro i x a n, s.latch = some (.compute w ri ro i x a n) →
      (engineTurn s).table = s.table ∧ (engineTurn s).tvalid = s.tvalid ∧ (engineTurn s).twidth = s.twidth)

/-! ### The register window -/

/-- Every register and table entry answers at its offset, and every address of the window gives its offset (10_state.md R20, 20_memory.md R61). -/
def Obligations.WindowSelectsEveryRegister : Prop :=
  (∀ r, slotOf (regOffset r) = .reg r) ∧ (∀ i, slotOf (tableOffset i) = .table i) ∧
  (∀ p off, windowOffset p (windowAddr p off) = some off)

/-- A host write of an operand register at its bus address stores the word, CFG its four low bits, and changes that register alone; a host
read of it at that address returns what it holds and changes nothing but the record of reads (10_state.md R21, R22, R24 to R29;
20_memory.md R61). -/
def Obligations.OperandRegistersReadBack : Prop :=
  ∀ (s : State) (data : BitVec 64) (v : Word), v = data.setWidth 32 →
    (hostWrite (windowAddr s.platform (regOffset .cfg)) .word data s =
        .next { s with width := v.extractLsb' 0 2, refin := v.getLsbD 2, refout := v.getLsbD 3 } ∧
      ∀ t, hostWrite (windowAddr s.platform (regOffset .cfg)) .word data s = .next t →
        hostRead (windowAddr s.platform (regOffset .cfg)) .word t =
          { t with reads := ⟨windowAddr s.platform (regOffset .cfg), .word, some (v &&& 0x0000000F)⟩ :: s.reads }) ∧
    (∀ r ∈ [Reg.poly, .init, .xorout, .daddr, .dlen, .opa], ∀ t,
      hostWrite (windowAddr s.platform (regOffset r)) .word data s = .next t →
        hostRead (windowAddr s.platform (regOffset r)) .word t =
          { t with reads := ⟨windowAddr s.platform (regOffset r), .word, some v⟩ :: s.reads }) ∧
    hostWrite (windowAddr s.platform (regOffset .poly)) .word data s = .next { s with poly := v } ∧
    hostWrite (windowAddr s.platform (regOffset .init)) .word data s = .next { s with init := v } ∧
    hostWrite (windowAddr s.platform (regOffset .xorout)) .word data s = .next { s with xorout := v } ∧
    hostWrite (windowAddr s.platform (regOffset .daddr)) .word data s = .next { s with daddr := v } ∧
    hostWrite (windowAddr s.platform (regOffset .dlen)) .word data s = .next { s with dlen := v } ∧
    hostWrite (windowAddr s.platform (regOffset .opa)) .word data s = .next { s with opa := v }

/-- Writes to RESULT, ACC and TABLE are ignored, and CMD reads 0 (10_state.md R21, R30, R39). -/
def Obligations.ReadOnlyWritesAreIgnored : Prop :=
  ∀ (s : State) (data : BitVec 64),
    hostWrite (windowAddr s.platform (regOffset .result)) .word data s = .next s ∧
    hostWrite (windowAddr s.platform (regOffset .acc)) .word data s = .next s ∧
    (∀ i, hostWrite (windowAddr s.platform (tableOffset i)) .word data s = .next s) ∧
    readReg .cmd s = (0, s)

/-- Unmapped offsets read 0 and ignore writes, and so do the reserved bits of CFG and STATUS (10_state.md R42). -/
def Obligations.UnmappedAndReservedReadZero : Prop :=
  (∀ (s : State) (off : BitVec 11) (data : BitVec 64), 0x02C ≤ off.toNat → off.toNat ≤ 0x3FC → off.toNat % 4 = 0 →
    hostWrite (windowAddr s.platform off) .word data s = .next s ∧
    hostRead (windowAddr s.platform off) .word s =
      { s with reads := ⟨windowAddr s.platform off, .word, some 0⟩ :: s.reads }) ∧
  (∀ s : State, cfgWord s >>> 4 = 0 ∧ statusWord s >>> 9 = 0) ∧
  (∀ (s : State) (v : Word), writeCfg v s = writeCfg (v &&& 0x0000000F) s ∧ writeStatus v s = writeStatus (v &&& 0x00000100) s)

/-- The fields of STATUS as a host read returns them, and a host write of it clears OVR if bit 8 is 1 and changes nothing else (10_state.md R31). -/
def Obligations.StatusWordLayout : Prop :=
  ∀ s : State,
    (statusWord s).getLsbD 0 = s.busy ∧ (statusWord s).getLsbD 1 = s.tvalid ∧ (statusWord s).extractLsb' 2 2 = s.twidth ∧
    (statusWord s).extractLsb' 4 4 = s.err ∧ (statusWord s).getLsbD 8 = s.ovr ∧ (statusWord s).extractLsb' 9 23 = 0 ∧
    readReg .status s = (statusWord s, s) ∧ statusWord State.reset = 0 ∧
    (∀ v : Word, writeReg .status v s = .next (if v.getLsbD 8 then { s with ovr := false } else s))

/-- RESULT and ACC read while BUSY = 1, and a TABLE entry read while TVALID = 0, return a free value, a fresh one each time; every other read is
exact and changes nothing (10_state.md R43). -/
def Obligations.OnlyTheNamedReadsAreFree : Prop :=
  (∀ s : State, s.busy = true →
    readReg .result s = (Config.freeWord s.draws, { s with draws := s.draws + 1 }) ∧
    readReg .acc s = (Config.freeWord s.draws, { s with draws := s.draws + 1 })) ∧
  (∀ (s : State) (i : Byte), s.tvalid = false →
    readTable i s = (Config.freeWord s.draws, { s with draws := s.draws + 1 })) ∧
  (∀ s : State, s.busy = false → readReg .result s = (s.result, s) ∧ readReg .acc s = (s.acc, s)) ∧
  (∀ (s : State) (i : Byte) (v : Word), s.tvalid = true → s.table.get i.toFin = some v → readTable i s = (v, s)) ∧
  (∀ s : State,
    readReg .cfg s = (cfgWord s, s) ∧ readReg .poly s = (s.poly, s) ∧ readReg .init s = (s.init, s) ∧
    readReg .xorout s = (s.xorout, s) ∧ readReg .daddr s = (s.daddr, s) ∧ readReg .dlen s = (s.dlen, s) ∧
    readReg .opa s = (s.opa, s) ∧ readReg .cmd s = (0, s) ∧ readReg .status s = (statusWord s, s) ∧
    readSlot .unmapped s = (0, s))

/-- An access to the window that is not an aligned 32-bit word records the model fault and has no register effect and no value (20_memory.md R62). -/
def Obligations.BadHostAccessIsRecorded : Prop :=
  ∀ (s : State) (off : BitVec 11) (size : Access) (data : BitVec 64), size ≠ .word ∨ off.toNat % 4 ≠ 0 →
    hostWrite (windowAddr s.platform off) size data s =
      .next { s with faults := s.faults ++ [.badHostAccess off size] } ∧
    hostRead (windowAddr s.platform off) size s =
      { s with faults := s.faults ++ [.badHostAccess off size],
               reads := ⟨windowAddr s.platform off, size, none⟩ :: s.reads }

/-- The operand registers may be written while BUSY = 1: the write takes effect, and it makes no difference to what the running command does
(70_reset_and_hazards.md R208). -/
def Obligations.OperandWritesWhileBusyAreSafe : Prop :=
  ∀ (s : State) (r : Reg) (v : Word), s.busy = true → r ∈ [Reg.cfg, .poly, .init, .xorout, .daddr, .dlen, .opa] →
    ∃ t, writeReg r v s = .next t ∧ t.busy = true ∧ t.latch = s.latch ∧
      writeReg r v (engineTurn s) = .next (engineTurn t)

/-- The operand registers change only by a host write to them, which stores what it writes, or by reset (10_state.md R21, R22, R24 to R29). -/
def Obligations.OperandRegistersChangeOnlyByWrites : Prop :=
  ∀ s t : State, step s = .next t → resetMoves s = false →
    ((t.width ≠ s.width ∨ t.refin ≠ s.refin ∨ t.refout ≠ s.refout) → ∃ v, nextRegWrite .cfg s = some v ∧
      t.width = v.extractLsb' 0 2 ∧ t.refin = v.getLsbD 2 ∧ t.refout = v.getLsbD 3) ∧
    (t.poly ≠ s.poly → nextRegWrite .poly s = some t.poly) ∧
    (t.init ≠ s.init → nextRegWrite .init s = some t.init) ∧
    (t.xorout ≠ s.xorout → nextRegWrite .xorout s = some t.xorout) ∧
    (t.daddr ≠ s.daddr → nextRegWrite .daddr s = some t.daddr) ∧
    (t.dlen ≠ s.dlen → nextRegWrite .dlen s = some t.dlen) ∧
    (t.opa ≠ s.opa → nextRegWrite .opa s = some t.opa)

/-- The host-script line SETUP cfg, poly, init, xorout: four steps of the Host, and the four registers hold the values (30_encoding.md R91). -/
def Obligations.SetupScriptProgramsTheVariant : Prop :=
  ∀ (s : State) (c p i x : Word) (rest : List Move), s.schedule = List.replicate 4 .host ++ rest →
    runSteps 4 (loadScript (scriptSetup s.platform c p i x) s) =
      .next { s with width := c.extractLsb' 0 2, refin := c.getLsbD 2, refout := c.getLsbD 3,
                     poly := p, init := i, xorout := x, schedule := rest }

/-! ### External memory -/

/-- A host write outside the window that stays inside the address space completes, and every byte of memory then reads as before, but for the bytes
of the write, which hold the datum in HOST_ENDIAN order (20_memory.md R60, R65, R71). Three points of it are the model's choice: that a write
into the latched buffer lands all the same (log entry 6), that a write is decoded by its first address, so that one running from below the
window into it stores all its bytes in memory (log entry 8), and that its length is 1, 2, 4 or 8 bytes (log entry 16). -/
def Obligations.MemoryWriteStoresItsBytes : Prop :=
  ∀ (s : State) (addr : Word) (size : Access) (data : BitVec 64), memWf s.mem = true →
    windowOffset s.platform addr = none → addr.toNat + accessBytes size ≤ 4294967296 →
    ∃ t, hostWrite addr size data s = .next t ∧
      (∀ a, ¬ (addr.toNat ≤ a ∧ a < addr.toNat + accessBytes size) → memByte t.mem a = memByte s.mem a) ∧
      (∀ k, k < accessBytes size →
        memByte t.mem (addr.toNat + k) =
          match s.platform.endian with
          | .little => data.extractLsb' (8 * k) 8
          | .big => data.extractLsb' (8 * (accessBytes size - 1 - k)) 8)

/-- The Engine never writes external memory, and neither does reset: a byte changes only by a host write that covers it (20_memory.md R60,
70_reset_and_hazards.md R200). -/
def Obligations.OnlyHostWritesChangeMemory : Prop :=
  ∀ s t : State, step s = .next t → ∀ a, memByte t.mem a ≠ memByte s.mem a →
    ∃ addr size data, nextMemWrite s = some (addr, size, data) ∧
      addr.toNat ≤ a ∧ a < addr.toNat + accessBytes size

/-- No step refuses anything, and the only step that stops with a fault is a host memory write past address 2^32 - 1 (the model's choice,
log entry 5; 20_memory.md R60). -/
def Obligations.OnlyWritesPastTheTopStop : Prop :=
  ∀ s : State, (∀ r, step s ≠ .refused r) ∧
    ((∃ f, step s = .fault f) ↔
      ∃ addr size data, nextMemWrite s = some (addr, size, data) ∧ 4294967296 < addr.toNat + accessBytes size)

/-- A host memory write that touches the buffer of a latched COMPUTE records the model fault, and RESULT and ACC then end as free values; a write
that touches none of it, or meets no latched COMPUTE, is an ordinary memory write (20_memory.md R77). Three points of it are the model's choice: that the fault
carries the write's own first address and that RESULT and ACC are free even where a byte read is refused (log entry 6), that a
write from below the window into it goes to memory whole (log entry 8), and the lengths a write may have (log entry 16). -/
def Obligations.BufferRaceLeavesResultsFree : Prop :=
  (∀ (s : State) (addr : Word) (size : Access) (data : BitVec 64) (w : Width) (ri ro : Bool) (i x a n : Word),
    s.busy = true → s.latch = some (.compute w ri ro i x a n) →
    windowOffset s.platform addr = none → addr.toNat + accessBytes size ≤ 4294967296 →
    (∃ b, addr.toNat ≤ b ∧ b < addr.toNat + accessBytes size ∧ a.toNat ≤ b ∧ b < a.toNat + n.toNat) →
    ∃ t, hostWrite addr size data s = .next t ∧ t.faults = s.faults ++ [.bufferRace addr] ∧
      ∃ k, t.draws ≤ k ∧ (engineTurn t).acc = Config.freeWord k ∧ (engineTurn t).result = Config.freeWord (k + 1)) ∧
  (∀ (s : State) (addr : Word) (size : Access) (data : BitVec 64),
    windowOffset s.platform addr = none → addr.toNat + accessBytes size ≤ 4294967296 →
    (s.busy = true → ∀ w ri ro i x a n, s.latch = some (.compute w ri ro i x a n) →
      ∀ b, addr.toNat ≤ b → b < addr.toNat + accessBytes size → a.toNat ≤ b → a.toNat + n.toNat ≤ b) →
    hostWrite addr size data s =
      .next { s with mem := memSetList s.mem addr.toNat (laneBytes s.platform.endian size data) })

/-! ### Status, reset and the run -/

/-- BUSY is set by an accepted command and cleared by the Engine step that completes it, or by reset; no host write changes it otherwise, and
BUSY = 1 means that the latch holds a command (10_state.md R32). -/
def Obligations.BusyRule : Prop :=
  (∀ s t : State, step s = .next t → s.busy = false → t.busy = true →
    ∃ v i, nextRegWrite .cmd s = some v ∧ decode v = .command i ∧ t.latch.isSome = true) ∧
  (∀ s t : State, step s = .next t → s.busy = true → t.busy = false → engineMoves s = true ∨ resetMoves s = true) ∧
  (∀ (s : State) (v : Word), s.busy = false → firstError v s = none → ∃ t, issue v s = .next t ∧ t.busy = true) ∧
  (∀ s : State, s.Inv → (engineTurn s).busy = false) ∧
  (∀ s : State, s.Inv → s.busy = true → s.latch.isSome = true)

/-- ERR changes only by a CMD write that is not ignored, by a COMPUTE that ends with a refused read, which makes it 5, or by reset
(10_state.md R34). -/
def Obligations.ErrChangesOnlyByItsRule : Prop :=
  ∀ s t : State, step s = .next t → t.err ≠ s.err →
    (s.busy = false ∧ ∃ v, nextRegWrite .cmd s = some v) ∨
    (engineMoves s = true ∧ s.busy = true ∧ t.err = 5 ∧
      ∃ w ri ro i x a n, s.latch = some (.compute w ri ro i x a n) ∧ ¬ bufferAdmitted s.platform a.toNat n.toNat) ∨
    (resetMoves s = true ∧ t.err = 0)

/-- RESULT changes only when the Engine completes a REFLECT or a COMPUTE, and ACC only when it completes a COMPUTE, or by reset
(10_state.md R36, R37). -/
def Obligations.ResultsChangeOnlyOnCompletion : Prop :=
  ∀ s t : State, step s = .next t → resetMoves s = false →
    (t.result ≠ s.result → engineMoves s = true ∧ s.busy = true ∧ t.busy = false ∧
      ((∃ a n, s.latch = some (.reflect a n)) ∨ ∃ w ri ro i x a n, s.latch = some (.compute w ri ro i x a n))) ∧
    (t.acc ≠ s.acc → engineMoves s = true ∧ s.busy = true ∧ t.busy = false ∧
      ∃ w ri ro i x a n, s.latch = some (.compute w ri ro i x a n))

/-- Model faults are recorded for good, and a faulted state is never final, however the run goes on (60_exceptions.md R186,
70_reset_and_hazards.md R200, R213). -/
def Obligations.FaultedRunsAreNeverFinal : Prop :=
  (∀ s t : State, step s = .next t → ∃ fs, t.faults = s.faults ++ fs) ∧
  (∀ (k : Nat) (s t : State), s.faults ≠ [] → runSteps k s = .next t → t.final = false)

/-- WAIT ends under every schedule, resets within it included: after some number of steps the host is past it, BUSY = 0, and the last value
it read has BUSY = 0. No number of polls bounds it: as long as the schedule has only the Host move, BUSY stays 1 and WAIT polls again. That a
finite schedule is followed by the Engine's step is the model's form of the weak fairness (30_encoding.md R91, 70_reset_and_hazards.md R209;
log entry 2). -/
def Obligations.WaitEnds : Prop :=
  (∀ (s : State) (rest : List HostAction), s.program = .wait :: rest → (s.busy = true → s.latch.isSome = true) →
    ∃ (k : Nat) (t : State), runSteps k s = .next t ∧ t.program = rest ∧ t.busy = false ∧
      ∃ v, t.reads.head? = some ⟨windowAddr s.platform (regOffset .status), .word, some v⟩ ∧ v.getLsbD 0 = false) ∧
  (∀ (s : State) (n : Nat) (rest : List HostAction) (moves : List Move), s.program = .wait :: rest → s.busy = true →
    s.schedule = List.replicate n .host ++ moves →
    ∃ t : State, runSteps n s = .next t ∧ t.program = .wait :: rest ∧ t.busy = true ∧ t.schedule = moves ∧
      t.reads.length = s.reads.length + n)

/-- Every piece of state that the spec gives a reset value has it, after the reset event and in the state a run starts from; every entry of
TABLE is unwritten and cannot be observed, and the model fault set is empty at the start (10_state.md R44). -/
def Obligations.ResetValues : Prop :=
  (∀ s : State,
    cfgWord (resetBlock s) = 0 ∧ (resetBlock s).poly = 0 ∧ (resetBlock s).init = 0 ∧ (resetBlock s).xorout = 0 ∧
    (resetBlock s).daddr = 0 ∧ (resetBlock s).dlen = 0 ∧ (resetBlock s).opa = 0 ∧ statusWord (resetBlock s) = 0 ∧
    (resetBlock s).result = 0 ∧ (resetBlock s).acc = 0 ∧ (resetBlock s).latch = none ∧
    (resetBlock s).table = Vector.replicate 256 none ∧
    (∀ i, readTable i (resetBlock s) = (Config.freeWord s.draws, { resetBlock s with draws := s.draws + 1 })) ∧
    exec .compute (resetBlock s) = .next { resetBlock s with err := 3 }) ∧
  cfgWord State.reset = 0 ∧ State.reset.poly = 0 ∧ State.reset.init = 0 ∧ State.reset.xorout = 0 ∧
  State.reset.daddr = 0 ∧ State.reset.dlen = 0 ∧ State.reset.opa = 0 ∧ statusWord State.reset = 0 ∧
  State.reset.result = 0 ∧ State.reset.acc = 0 ∧ State.reset.latch = none ∧ State.reset.table = Vector.replicate 256 none ∧
  State.reset.faults = []

/-- Reset at any time: the running command is abandoned, the block takes its reset values, and memory, the model faults and the platform
stay (70_reset_and_hazards.md R200). -/
def Obligations.ResetAbandonsTheCommand : Prop :=
  ∀ s : State, nextMove s = .reset →
    ∃ t, step s = .next t ∧ t.busy = false ∧ t.latch = none ∧ t.tvalid = false ∧
      cfgWord t = 0 ∧ statusWord t = 0 ∧ t.poly = 0 ∧ t.init = 0 ∧ t.xorout = 0 ∧ t.daddr = 0 ∧ t.dlen = 0 ∧
      t.opa = 0 ∧ t.result = 0 ∧ t.acc = 0 ∧
      t.mem = s.mem ∧ t.faults = s.faults ∧ t.platform = s.platform ∧
      t.program = s.program ∧ t.schedule = s.schedule.tail

/-! ### The invariant -/

/-- Every step keeps the invariant: the latch is present exactly when BUSY = 1 and holds checked operands, ERR is a named code and 0 while a command runs,
a valid table is complete and of its tagged width, and memory is canonical (10_state.md R33, R34, R39, R40, R45). -/
def Obligations.EveryStepKeepsTheStateSound : Prop :=
  ∀ s t : State, s.Inv → step s = .next t → t.Inv

/-- The state after reset meets the invariant. -/
def Obligations.ResetStateIsSound : Prop :=
  State.reset.Inv

/-! ### The assembler -/

/-- Each mnemonic assembles to one host write of its word to CMD, REFLECT's count being any value from 0 to 63; a count above 63 is refused,
and with it every host-script line it stands in (30_encoding.md R89). -/
def Obligations.MnemonicsAssembleToOneWrite : Prop :=
  (∀ (p : Platform) (i : Instr), i.wellFormed = true →
    scriptCommand p i = some [.write (windowAddr p 0x01C) .word ((encode i).setWidth 64)]) ∧
  (encode .gentab = 0x00000001 ∧ encode .compute = 0x00000002 ∧
    ∀ n, n ≤ 63 → (encode (.reflect n)).toNat = 3 + 256 * n ∧ (Instr.reflect n).wellFormed = true) ∧
  (∀ (p : Platform) (value : Word) (n : Nat), 63 < n →
    assemble (.reflect n) = none ∧ scriptCommand p (.reflect n) = none ∧ scriptRefl p value n = none)
end

