-- ==== Sys2Proof/Laws/Memory.lean ====
section
/-! SUPPORT. What memory's operations do: the read after a write, the frame of a write, and the canonical form. -/

namespace Sys2Proof.Machine

/-- A byte above every listed address reads as the default, and so does one below the first. -/
theorem memByte_below {lo : Nat} {m : List Host.Cell} (h : memWfFrom lo m = true) {x : Nat} (hx : x < lo) :
    memByte m x = memDefault := by
  induction m generalizing lo with
  | nil => rfl
  | cons c m ih =>
    obtain ⟨a, v⟩ := c
    simp only [memWfFrom, Bool.and_eq_true, decide_eq_true_eq] at h
    have hne : a ≠ x := by omega
    simpa [memByte, hne] using ih h.2 (by omega)

/-- Writing one byte leaves every other address as it was, in any memory. -/
theorem memByte_memSet_ne (m : List Host.Cell) {x y : Nat} (v : Byte) (hxy : y ≠ x) :
    memByte (memSet m x v) y = memByte m y := by
  induction m with
  | nil => by_cases hv : v = memDefault <;> simp [memSet, memByte, hv, Ne.symm hxy]
  | cons c m ih =>
    obtain ⟨a, u⟩ := c
    by_cases h1 : x < a
    · by_cases hv : v = memDefault <;> simp [memSet, memByte, h1, hv, Ne.symm hxy]
    · by_cases h2 : x = a
      · subst h2
        by_cases hv : v = memDefault <;> simp [memSet, memByte, hv, Ne.symm hxy]
      · by_cases h3 : a = y
        · subst h3; simp [memSet, memByte, h1, h2]
        · simp [memSet, memByte, h1, h2, h3, ih]

/-- A canonical memory gives back the byte just written. -/
theorem memByte_memSet_same {lo : Nat} {m : List Host.Cell} (h : memWfFrom lo m = true) (x : Nat) (v : Byte) :
    memByte (memSet m x v) x = v := by
  induction m generalizing lo with
  | nil => by_cases hv : v = memDefault <;> simp [memSet, memByte, hv]
  | cons c m ih =>
    obtain ⟨a, u⟩ := c
    simp only [memWfFrom, Bool.and_eq_true, decide_eq_true_eq] at h
    by_cases h1 : x < a
    · have ha : a ≠ x := by omega
      have htail : memByte m x = memDefault := memByte_below h.2 (by omega)
      by_cases hv : v = memDefault <;> simp [memSet, memByte, h1, hv, ha, htail]
    · by_cases h2 : x = a
      · subst h2
        have htail : memByte m x = memDefault := memByte_below h.2 (by omega)
        by_cases hv : v = memDefault <;> simp [memSet, memByte, hv, htail]
      · simp [memSet, memByte, h1, h2, Ne.symm h2, ih h.2]

/-- Writing a byte at an existing address keeps the canonical form. -/
theorem memWfFrom_memSet {lo : Nat} {m : List Host.Cell} (h : memWfFrom lo m = true) {x : Nat} (v : Byte)
    (hlo : lo ≤ x) (hx : x < Config.addressSpace) : memWfFrom lo (memSet m x v) = true := by
  induction m generalizing lo with
  | nil =>
    by_cases hv : v = memDefault <;> simp_all [memSet, memWfFrom]
  | cons c m ih =>
    obtain ⟨a, u⟩ := c
    have h0 := h
    simp only [memWfFrom, Bool.and_eq_true, decide_eq_true_eq] at h
    obtain ⟨⟨⟨hla, haS⟩, hu⟩, ht⟩ := h
    by_cases h1 : x < a
    · by_cases hv : v = memDefault
      · simpa [memSet, h1, hv] using h0
      · have : x + 1 ≤ a := by omega
        simp [memSet, h1, hv, memWfFrom, hlo, hx, this, haS, hu, ht]
    · by_cases h2 : x = a
      · subst h2
        by_cases hv : v = memDefault
        · simp only [memSet, hv, if_neg h1]
          exact memWfFrom_mono ht (by omega)
        · simp [memSet, hv, memWfFrom, hlo, hx, ht]
      · have := ih ht (by omega)
        simp [memSet, h1, h2, memWfFrom, hla, haS, hu, this]
where
  /-- A lower bound may be weakened. -/
  memWfFrom_mono {lo lo' : Nat} {m : List Host.Cell} (h : memWfFrom lo m = true) (hle : lo' ≤ lo) :
      memWfFrom lo' m = true := by
    cases m with
    | nil => rfl
    | cons c m =>
      obtain ⟨a, v⟩ := c
      simp only [memWfFrom, Bool.and_eq_true, decide_eq_true_eq] at h ⊢
      exact ⟨⟨⟨by omega, h.1.1.2⟩, h.1.2⟩, h.2⟩

/-- Every memory operation keeps the canonical form: one byte. -/
theorem memWf_memSet {m : List Host.Cell} (h : memWf m = true) {x : Nat} (v : Byte) (hx : x < Config.addressSpace) :
    memWf (memSet m x v) = true :=
  memWfFrom_memSet h v (Nat.zero_le x) hx

/-- Every memory operation keeps the canonical form: consecutive bytes. -/
theorem memWf_memSetList {m : List Host.Cell} (h : memWf m = true) {x : Nat} (vs : List Byte)
    (hx : x + vs.length ≤ Config.addressSpace) : memWf (memSetList m x vs) = true := by
  induction vs generalizing m x with
  | nil => exact h
  | cons v vs ih =>
    simp only [List.length_cons] at hx
    exact ih (memWf_memSet h v (by omega)) (by omega)

/-- Consecutive bytes written leave every address outside them as it was, in any memory. -/
theorem memByte_memSetList_outside (m : List Host.Cell) {x y : Nat} (vs : List Byte)
    (hy : y < x ∨ x + vs.length ≤ y) : memByte (memSetList m x vs) y = memByte m y := by
  induction vs generalizing m x with
  | nil => rfl
  | cons v vs ih =>
    simp only [List.length_cons] at hy
    have hne : y ≠ x := by omega
    simp only [memSetList]
    rw [ih _ (by omega), memByte_memSet_ne m v hne]

/-- Consecutive bytes written into a canonical memory read back. -/
theorem memByte_memSetList_inside {m : List Host.Cell} (h : memWf m = true) {x k : Nat} (vs : List Byte)
    (hx : x + vs.length ≤ Config.addressSpace) (hk : k < vs.length) :
    memByte (memSetList m x vs) (x + k) = vs[k] := by
  induction vs generalizing m x k with
  | nil => simp at hk
  | cons v vs ih =>
    simp only [List.length_cons] at hx hk
    simp only [memSetList]
    cases k with
    | zero =>
      rw [memByte_memSetList_outside _ vs (by omega)]
      exact memByte_memSet_same h x v
    | succ k =>
      have := ih (memWf_memSet h v (x := x) (by omega)) (x := x + 1) (k := k) (by omega) (by omega)
      simpa [Nat.add_assoc, Nat.add_comm 1 k] using this

/-- A host write stores as many bytes as its access has. -/
@[simp] theorem laneBytes_length (e : Endian) (size : Access) (data : BitVec 64) :
    (laneBytes e size data).length = accessBytes size := by
  cases e <;> simp [laneBytes]

/-- Reset memory is canonical. -/
theorem reset_memWf : memWf State.reset.mem = true := rfl

/-- What a refused or granted read says: `memRead` answers exactly where the platform admits the address. -/
theorem memRead_eq_some {p : Platform} {m : List Host.Cell} {a : Nat} {b : Byte} :
    memRead p m a = some b ↔ memAdmit p a = true ∧ memByte m a = b := by
  simp [memRead]

/-- A read is refused exactly where the platform does not admit the address. -/
theorem memRead_eq_none {p : Platform} {m : List Host.Cell} {a : Nat} :
    memRead p m a = none ↔ memAdmit p a = false := by
  simp [memRead]

end Sys2Proof.Machine
end

