-- ==== Sys2Proof/Laws/State.lean ====
section
/-! SUPPORT. One lemma per field of State per named update, each true by rfl, so that no proof unfolds a record update. -/

namespace Sys2Proof.Machine

variable (s : State)

/-! `raiseErr` -/

@[simp] theorem raiseErr_width (code : BitVec 4) : (raiseErr code s).width = s.width := rfl
@[simp] theorem raiseErr_refin (code : BitVec 4) : (raiseErr code s).refin = s.refin := rfl
@[simp] theorem raiseErr_refout (code : BitVec 4) : (raiseErr code s).refout = s.refout := rfl
@[simp] theorem raiseErr_poly (code : BitVec 4) : (raiseErr code s).poly = s.poly := rfl
@[simp] theorem raiseErr_init (code : BitVec 4) : (raiseErr code s).init = s.init := rfl
@[simp] theorem raiseErr_xorout (code : BitVec 4) : (raiseErr code s).xorout = s.xorout := rfl
@[simp] theorem raiseErr_daddr (code : BitVec 4) : (raiseErr code s).daddr = s.daddr := rfl
@[simp] theorem raiseErr_dlen (code : BitVec 4) : (raiseErr code s).dlen = s.dlen := rfl
@[simp] theorem raiseErr_opa (code : BitVec 4) : (raiseErr code s).opa = s.opa := rfl
@[simp] theorem raiseErr_busy (code : BitVec 4) : (raiseErr code s).busy = s.busy := rfl
@[simp] theorem raiseErr_tvalid (code : BitVec 4) : (raiseErr code s).tvalid = s.tvalid := rfl
@[simp] theorem raiseErr_twidth (code : BitVec 4) : (raiseErr code s).twidth = s.twidth := rfl
@[simp] theorem raiseErr_err (code : BitVec 4) : (raiseErr code s).err = code := rfl
@[simp] theorem raiseErr_ovr (code : BitVec 4) : (raiseErr code s).ovr = s.ovr := rfl
@[simp] theorem raiseErr_result (code : BitVec 4) : (raiseErr code s).result = s.result := rfl
@[simp] theorem raiseErr_acc (code : BitVec 4) : (raiseErr code s).acc = s.acc := rfl
@[simp] theorem raiseErr_table (code : BitVec 4) : (raiseErr code s).table = s.table := rfl
@[simp] theorem raiseErr_latch (code : BitVec 4) : (raiseErr code s).latch = s.latch := rfl
@[simp] theorem raiseErr_faults (code : BitVec 4) : (raiseErr code s).faults = s.faults := rfl
@[simp] theorem raiseErr_mem (code : BitVec 4) : (raiseErr code s).mem = s.mem := rfl
@[simp] theorem raiseErr_platform (code : BitVec 4) : (raiseErr code s).platform = s.platform := rfl
@[simp] theorem raiseErr_raced (code : BitVec 4) : (raiseErr code s).raced = s.raced := rfl
@[simp] theorem raiseErr_draws (code : BitVec 4) : (raiseErr code s).draws = s.draws := rfl
@[simp] theorem raiseErr_reads (code : BitVec 4) : (raiseErr code s).reads = s.reads := rfl
@[simp] theorem raiseErr_program (code : BitVec 4) : (raiseErr code s).program = s.program := rfl
@[simp] theorem raiseErr_schedule (code : BitVec 4) : (raiseErr code s).schedule = s.schedule := rfl

/-! `overrun` -/

@[simp] theorem overrun_width : (overrun s).width = s.width := rfl
@[simp] theorem overrun_refin : (overrun s).refin = s.refin := rfl
@[simp] theorem overrun_refout : (overrun s).refout = s.refout := rfl
@[simp] theorem overrun_poly : (overrun s).poly = s.poly := rfl
@[simp] theorem overrun_init : (overrun s).init = s.init := rfl
@[simp] theorem overrun_xorout : (overrun s).xorout = s.xorout := rfl
@[simp] theorem overrun_daddr : (overrun s).daddr = s.daddr := rfl
@[simp] theorem overrun_dlen : (overrun s).dlen = s.dlen := rfl
@[simp] theorem overrun_opa : (overrun s).opa = s.opa := rfl
@[simp] theorem overrun_busy : (overrun s).busy = s.busy := rfl
@[simp] theorem overrun_tvalid : (overrun s).tvalid = s.tvalid := rfl
@[simp] theorem overrun_twidth : (overrun s).twidth = s.twidth := rfl
@[simp] theorem overrun_err : (overrun s).err = s.err := rfl
@[simp] theorem overrun_ovr : (overrun s).ovr = true := rfl
@[simp] theorem overrun_result : (overrun s).result = s.result := rfl
@[simp] theorem overrun_acc : (overrun s).acc = s.acc := rfl
@[simp] theorem overrun_table : (overrun s).table = s.table := rfl
@[simp] theorem overrun_latch : (overrun s).latch = s.latch := rfl
@[simp] theorem overrun_faults : (overrun s).faults = s.faults := rfl
@[simp] theorem overrun_mem : (overrun s).mem = s.mem := rfl
@[simp] theorem overrun_platform : (overrun s).platform = s.platform := rfl
@[simp] theorem overrun_raced : (overrun s).raced = s.raced := rfl
@[simp] theorem overrun_draws : (overrun s).draws = s.draws := rfl
@[simp] theorem overrun_reads : (overrun s).reads = s.reads := rfl
@[simp] theorem overrun_program : (overrun s).program = s.program := rfl
@[simp] theorem overrun_schedule : (overrun s).schedule = s.schedule := rfl

/-! `accept` -/

@[simp] theorem accept_width (l : Latch) : (accept l s).width = s.width := rfl
@[simp] theorem accept_refin (l : Latch) : (accept l s).refin = s.refin := rfl
@[simp] theorem accept_refout (l : Latch) : (accept l s).refout = s.refout := rfl
@[simp] theorem accept_poly (l : Latch) : (accept l s).poly = s.poly := rfl
@[simp] theorem accept_init (l : Latch) : (accept l s).init = s.init := rfl
@[simp] theorem accept_xorout (l : Latch) : (accept l s).xorout = s.xorout := rfl
@[simp] theorem accept_daddr (l : Latch) : (accept l s).daddr = s.daddr := rfl
@[simp] theorem accept_dlen (l : Latch) : (accept l s).dlen = s.dlen := rfl
@[simp] theorem accept_opa (l : Latch) : (accept l s).opa = s.opa := rfl
@[simp] theorem accept_busy (l : Latch) : (accept l s).busy = true := rfl
@[simp] theorem accept_tvalid (l : Latch) : (accept l s).tvalid = s.tvalid := rfl
@[simp] theorem accept_twidth (l : Latch) : (accept l s).twidth = s.twidth := rfl
@[simp] theorem accept_err (l : Latch) : (accept l s).err = errNone := rfl
@[simp] theorem accept_ovr (l : Latch) : (accept l s).ovr = s.ovr := rfl
@[simp] theorem accept_result (l : Latch) : (accept l s).result = s.result := rfl
@[simp] theorem accept_acc (l : Latch) : (accept l s).acc = s.acc := rfl
@[simp] theorem accept_table (l : Latch) : (accept l s).table = s.table := rfl
@[simp] theorem accept_latch (l : Latch) : (accept l s).latch = some l := rfl
@[simp] theorem accept_faults (l : Latch) : (accept l s).faults = s.faults := rfl
@[simp] theorem accept_mem (l : Latch) : (accept l s).mem = s.mem := rfl
@[simp] theorem accept_platform (l : Latch) : (accept l s).platform = s.platform := rfl
@[simp] theorem accept_raced (l : Latch) : (accept l s).raced = false := rfl
@[simp] theorem accept_draws (l : Latch) : (accept l s).draws = s.draws := rfl
@[simp] theorem accept_reads (l : Latch) : (accept l s).reads = s.reads := rfl
@[simp] theorem accept_program (l : Latch) : (accept l s).program = s.program := rfl
@[simp] theorem accept_schedule (l : Latch) : (accept l s).schedule = s.schedule := rfl

/-! `complete` -/

@[simp] theorem complete_width : (complete s).width = s.width := rfl
@[simp] theorem complete_refin : (complete s).refin = s.refin := rfl
@[simp] theorem complete_refout : (complete s).refout = s.refout := rfl
@[simp] theorem complete_poly : (complete s).poly = s.poly := rfl
@[simp] theorem complete_init : (complete s).init = s.init := rfl
@[simp] theorem complete_xorout : (complete s).xorout = s.xorout := rfl
@[simp] theorem complete_daddr : (complete s).daddr = s.daddr := rfl
@[simp] theorem complete_dlen : (complete s).dlen = s.dlen := rfl
@[simp] theorem complete_opa : (complete s).opa = s.opa := rfl
@[simp] theorem complete_busy : (complete s).busy = false := rfl
@[simp] theorem complete_tvalid : (complete s).tvalid = s.tvalid := rfl
@[simp] theorem complete_twidth : (complete s).twidth = s.twidth := rfl
@[simp] theorem complete_err : (complete s).err = s.err := rfl
@[simp] theorem complete_ovr : (complete s).ovr = s.ovr := rfl
@[simp] theorem complete_result : (complete s).result = s.result := rfl
@[simp] theorem complete_acc : (complete s).acc = s.acc := rfl
@[simp] theorem complete_table : (complete s).table = s.table := rfl
@[simp] theorem complete_latch : (complete s).latch = none := rfl
@[simp] theorem complete_faults : (complete s).faults = s.faults := rfl
@[simp] theorem complete_mem : (complete s).mem = s.mem := rfl
@[simp] theorem complete_platform : (complete s).platform = s.platform := rfl
@[simp] theorem complete_raced : (complete s).raced = false := rfl
@[simp] theorem complete_draws : (complete s).draws = s.draws := rfl
@[simp] theorem complete_reads : (complete s).reads = s.reads := rfl
@[simp] theorem complete_program : (complete s).program = s.program := rfl
@[simp] theorem complete_schedule : (complete s).schedule = s.schedule := rfl

/-! `advanceDraws` -/

@[simp] theorem advanceDraws_width (k : Nat) : (advanceDraws k s).width = s.width := rfl
@[simp] theorem advanceDraws_refin (k : Nat) : (advanceDraws k s).refin = s.refin := rfl
@[simp] theorem advanceDraws_refout (k : Nat) : (advanceDraws k s).refout = s.refout := rfl
@[simp] theorem advanceDraws_poly (k : Nat) : (advanceDraws k s).poly = s.poly := rfl
@[simp] theorem advanceDraws_init (k : Nat) : (advanceDraws k s).init = s.init := rfl
@[simp] theorem advanceDraws_xorout (k : Nat) : (advanceDraws k s).xorout = s.xorout := rfl
@[simp] theorem advanceDraws_daddr (k : Nat) : (advanceDraws k s).daddr = s.daddr := rfl
@[simp] theorem advanceDraws_dlen (k : Nat) : (advanceDraws k s).dlen = s.dlen := rfl
@[simp] theorem advanceDraws_opa (k : Nat) : (advanceDraws k s).opa = s.opa := rfl
@[simp] theorem advanceDraws_busy (k : Nat) : (advanceDraws k s).busy = s.busy := rfl
@[simp] theorem advanceDraws_tvalid (k : Nat) : (advanceDraws k s).tvalid = s.tvalid := rfl
@[simp] theorem advanceDraws_twidth (k : Nat) : (advanceDraws k s).twidth = s.twidth := rfl
@[simp] theorem advanceDraws_err (k : Nat) : (advanceDraws k s).err = s.err := rfl
@[simp] theorem advanceDraws_ovr (k : Nat) : (advanceDraws k s).ovr = s.ovr := rfl
@[simp] theorem advanceDraws_result (k : Nat) : (advanceDraws k s).result = s.result := rfl
@[simp] theorem advanceDraws_acc (k : Nat) : (advanceDraws k s).acc = s.acc := rfl
@[simp] theorem advanceDraws_table (k : Nat) : (advanceDraws k s).table = s.table := rfl
@[simp] theorem advanceDraws_latch (k : Nat) : (advanceDraws k s).latch = s.latch := rfl
@[simp] theorem advanceDraws_faults (k : Nat) : (advanceDraws k s).faults = s.faults := rfl
@[simp] theorem advanceDraws_mem (k : Nat) : (advanceDraws k s).mem = s.mem := rfl
@[simp] theorem advanceDraws_platform (k : Nat) : (advanceDraws k s).platform = s.platform := rfl
@[simp] theorem advanceDraws_raced (k : Nat) : (advanceDraws k s).raced = s.raced := rfl
@[simp] theorem advanceDraws_draws (k : Nat) : (advanceDraws k s).draws = s.draws + k := rfl
@[simp] theorem advanceDraws_reads (k : Nat) : (advanceDraws k s).reads = s.reads := rfl
@[simp] theorem advanceDraws_program (k : Nat) : (advanceDraws k s).program = s.program := rfl
@[simp] theorem advanceDraws_schedule (k : Nat) : (advanceDraws k s).schedule = s.schedule := rfl

/-! `recordFault` -/

@[simp] theorem recordFault_width (f : ModelFault) : (recordFault f s).width = s.width := rfl
@[simp] theorem recordFault_refin (f : ModelFault) : (recordFault f s).refin = s.refin := rfl
@[simp] theorem recordFault_refout (f : ModelFault) : (recordFault f s).refout = s.refout := rfl
@[simp] theorem recordFault_poly (f : ModelFault) : (recordFault f s).poly = s.poly := rfl
@[simp] theorem recordFault_init (f : ModelFault) : (recordFault f s).init = s.init := rfl
@[simp] theorem recordFault_xorout (f : ModelFault) : (recordFault f s).xorout = s.xorout := rfl
@[simp] theorem recordFault_daddr (f : ModelFault) : (recordFault f s).daddr = s.daddr := rfl
@[simp] theorem recordFault_dlen (f : ModelFault) : (recordFault f s).dlen = s.dlen := rfl
@[simp] theorem recordFault_opa (f : ModelFault) : (recordFault f s).opa = s.opa := rfl
@[simp] theorem recordFault_busy (f : ModelFault) : (recordFault f s).busy = s.busy := rfl
@[simp] theorem recordFault_tvalid (f : ModelFault) : (recordFault f s).tvalid = s.tvalid := rfl
@[simp] theorem recordFault_twidth (f : ModelFault) : (recordFault f s).twidth = s.twidth := rfl
@[simp] theorem recordFault_err (f : ModelFault) : (recordFault f s).err = s.err := rfl
@[simp] theorem recordFault_ovr (f : ModelFault) : (recordFault f s).ovr = s.ovr := rfl
@[simp] theorem recordFault_result (f : ModelFault) : (recordFault f s).result = s.result := rfl
@[simp] theorem recordFault_acc (f : ModelFault) : (recordFault f s).acc = s.acc := rfl
@[simp] theorem recordFault_table (f : ModelFault) : (recordFault f s).table = s.table := rfl
@[simp] theorem recordFault_latch (f : ModelFault) : (recordFault f s).latch = s.latch := rfl
@[simp] theorem recordFault_faults (f : ModelFault) : (recordFault f s).faults = s.faults ++ [f] := rfl
@[simp] theorem recordFault_mem (f : ModelFault) : (recordFault f s).mem = s.mem := rfl
@[simp] theorem recordFault_platform (f : ModelFault) : (recordFault f s).platform = s.platform := rfl
@[simp] theorem recordFault_raced (f : ModelFault) : (recordFault f s).raced = s.raced := rfl
@[simp] theorem recordFault_draws (f : ModelFault) : (recordFault f s).draws = s.draws := rfl
@[simp] theorem recordFault_reads (f : ModelFault) : (recordFault f s).reads = s.reads := rfl
@[simp] theorem recordFault_program (f : ModelFault) : (recordFault f s).program = s.program := rfl
@[simp] theorem recordFault_schedule (f : ModelFault) : (recordFault f s).schedule = s.schedule := rfl

/-! `recordRead` -/

@[simp] theorem recordRead_width (r : HostRead) : (recordRead r s).width = s.width := rfl
@[simp] theorem recordRead_refin (r : HostRead) : (recordRead r s).refin = s.refin := rfl
@[simp] theorem recordRead_refout (r : HostRead) : (recordRead r s).refout = s.refout := rfl
@[simp] theorem recordRead_poly (r : HostRead) : (recordRead r s).poly = s.poly := rfl
@[simp] theorem recordRead_init (r : HostRead) : (recordRead r s).init = s.init := rfl
@[simp] theorem recordRead_xorout (r : HostRead) : (recordRead r s).xorout = s.xorout := rfl
@[simp] theorem recordRead_daddr (r : HostRead) : (recordRead r s).daddr = s.daddr := rfl
@[simp] theorem recordRead_dlen (r : HostRead) : (recordRead r s).dlen = s.dlen := rfl
@[simp] theorem recordRead_opa (r : HostRead) : (recordRead r s).opa = s.opa := rfl
@[simp] theorem recordRead_busy (r : HostRead) : (recordRead r s).busy = s.busy := rfl
@[simp] theorem recordRead_tvalid (r : HostRead) : (recordRead r s).tvalid = s.tvalid := rfl
@[simp] theorem recordRead_twidth (r : HostRead) : (recordRead r s).twidth = s.twidth := rfl
@[simp] theorem recordRead_err (r : HostRead) : (recordRead r s).err = s.err := rfl
@[simp] theorem recordRead_ovr (r : HostRead) : (recordRead r s).ovr = s.ovr := rfl
@[simp] theorem recordRead_result (r : HostRead) : (recordRead r s).result = s.result := rfl
@[simp] theorem recordRead_acc (r : HostRead) : (recordRead r s).acc = s.acc := rfl
@[simp] theorem recordRead_table (r : HostRead) : (recordRead r s).table = s.table := rfl
@[simp] theorem recordRead_latch (r : HostRead) : (recordRead r s).latch = s.latch := rfl
@[simp] theorem recordRead_faults (r : HostRead) : (recordRead r s).faults = s.faults := rfl
@[simp] theorem recordRead_mem (r : HostRead) : (recordRead r s).mem = s.mem := rfl
@[simp] theorem recordRead_platform (r : HostRead) : (recordRead r s).platform = s.platform := rfl
@[simp] theorem recordRead_raced (r : HostRead) : (recordRead r s).raced = s.raced := rfl
@[simp] theorem recordRead_draws (r : HostRead) : (recordRead r s).draws = s.draws := rfl
@[simp] theorem recordRead_reads (r : HostRead) : (recordRead r s).reads = r :: s.reads := rfl
@[simp] theorem recordRead_program (r : HostRead) : (recordRead r s).program = s.program := rfl
@[simp] theorem recordRead_schedule (r : HostRead) : (recordRead r s).schedule = s.schedule := rfl

/-! `writeStatus` -/

@[simp] theorem writeStatus_width (v : Word) : (writeStatus v s).width = s.width := rfl
@[simp] theorem writeStatus_refin (v : Word) : (writeStatus v s).refin = s.refin := rfl
@[simp] theorem writeStatus_refout (v : Word) : (writeStatus v s).refout = s.refout := rfl
@[simp] theorem writeStatus_poly (v : Word) : (writeStatus v s).poly = s.poly := rfl
@[simp] theorem writeStatus_init (v : Word) : (writeStatus v s).init = s.init := rfl
@[simp] theorem writeStatus_xorout (v : Word) : (writeStatus v s).xorout = s.xorout := rfl
@[simp] theorem writeStatus_daddr (v : Word) : (writeStatus v s).daddr = s.daddr := rfl
@[simp] theorem writeStatus_dlen (v : Word) : (writeStatus v s).dlen = s.dlen := rfl
@[simp] theorem writeStatus_opa (v : Word) : (writeStatus v s).opa = s.opa := rfl
@[simp] theorem writeStatus_busy (v : Word) : (writeStatus v s).busy = s.busy := rfl
@[simp] theorem writeStatus_tvalid (v : Word) : (writeStatus v s).tvalid = s.tvalid := rfl
@[simp] theorem writeStatus_twidth (v : Word) : (writeStatus v s).twidth = s.twidth := rfl
@[simp] theorem writeStatus_err (v : Word) : (writeStatus v s).err = s.err := rfl
@[simp] theorem writeStatus_ovr (v : Word) : (writeStatus v s).ovr = (s.ovr && !v.getLsbD 8) := rfl
@[simp] theorem writeStatus_result (v : Word) : (writeStatus v s).result = s.result := rfl
@[simp] theorem writeStatus_acc (v : Word) : (writeStatus v s).acc = s.acc := rfl
@[simp] theorem writeStatus_table (v : Word) : (writeStatus v s).table = s.table := rfl
@[simp] theorem writeStatus_latch (v : Word) : (writeStatus v s).latch = s.latch := rfl
@[simp] theorem writeStatus_faults (v : Word) : (writeStatus v s).faults = s.faults := rfl
@[simp] theorem writeStatus_mem (v : Word) : (writeStatus v s).mem = s.mem := rfl
@[simp] theorem writeStatus_platform (v : Word) : (writeStatus v s).platform = s.platform := rfl
@[simp] theorem writeStatus_raced (v : Word) : (writeStatus v s).raced = s.raced := rfl
@[simp] theorem writeStatus_draws (v : Word) : (writeStatus v s).draws = s.draws := rfl
@[simp] theorem writeStatus_reads (v : Word) : (writeStatus v s).reads = s.reads := rfl
@[simp] theorem writeStatus_program (v : Word) : (writeStatus v s).program = s.program := rfl
@[simp] theorem writeStatus_schedule (v : Word) : (writeStatus v s).schedule = s.schedule := rfl

/-! `writeCfg` -/

@[simp] theorem writeCfg_width (v : Word) : (writeCfg v s).width = v.extractLsb' 0 2 := rfl
@[simp] theorem writeCfg_refin (v : Word) : (writeCfg v s).refin = v.getLsbD 2 := rfl
@[simp] theorem writeCfg_refout (v : Word) : (writeCfg v s).refout = v.getLsbD 3 := rfl
@[simp] theorem writeCfg_poly (v : Word) : (writeCfg v s).poly = s.poly := rfl
@[simp] theorem writeCfg_init (v : Word) : (writeCfg v s).init = s.init := rfl
@[simp] theorem writeCfg_xorout (v : Word) : (writeCfg v s).xorout = s.xorout := rfl
@[simp] theorem writeCfg_daddr (v : Word) : (writeCfg v s).daddr = s.daddr := rfl
@[simp] theorem writeCfg_dlen (v : Word) : (writeCfg v s).dlen = s.dlen := rfl
@[simp] theorem writeCfg_opa (v : Word) : (writeCfg v s).opa = s.opa := rfl
@[simp] theorem writeCfg_busy (v : Word) : (writeCfg v s).busy = s.busy := rfl
@[simp] theorem writeCfg_tvalid (v : Word) : (writeCfg v s).tvalid = s.tvalid := rfl
@[simp] theorem writeCfg_twidth (v : Word) : (writeCfg v s).twidth = s.twidth := rfl
@[simp] theorem writeCfg_err (v : Word) : (writeCfg v s).err = s.err := rfl
@[simp] theorem writeCfg_ovr (v : Word) : (writeCfg v s).ovr = s.ovr := rfl
@[simp] theorem writeCfg_result (v : Word) : (writeCfg v s).result = s.result := rfl
@[simp] theorem writeCfg_acc (v : Word) : (writeCfg v s).acc = s.acc := rfl
@[simp] theorem writeCfg_table (v : Word) : (writeCfg v s).table = s.table := rfl
@[simp] theorem writeCfg_latch (v : Word) : (writeCfg v s).latch = s.latch := rfl
@[simp] theorem writeCfg_faults (v : Word) : (writeCfg v s).faults = s.faults := rfl
@[simp] theorem writeCfg_mem (v : Word) : (writeCfg v s).mem = s.mem := rfl
@[simp] theorem writeCfg_platform (v : Word) : (writeCfg v s).platform = s.platform := rfl
@[simp] theorem writeCfg_raced (v : Word) : (writeCfg v s).raced = s.raced := rfl
@[simp] theorem writeCfg_draws (v : Word) : (writeCfg v s).draws = s.draws := rfl
@[simp] theorem writeCfg_reads (v : Word) : (writeCfg v s).reads = s.reads := rfl
@[simp] theorem writeCfg_program (v : Word) : (writeCfg v s).program = s.program := rfl
@[simp] theorem writeCfg_schedule (v : Word) : (writeCfg v s).schedule = s.schedule := rfl

/-! `recordRace` -/

@[simp] theorem recordRace_width (addr : Word) : (recordRace addr s).width = s.width := rfl
@[simp] theorem recordRace_refin (addr : Word) : (recordRace addr s).refin = s.refin := rfl
@[simp] theorem recordRace_refout (addr : Word) : (recordRace addr s).refout = s.refout := rfl
@[simp] theorem recordRace_poly (addr : Word) : (recordRace addr s).poly = s.poly := rfl
@[simp] theorem recordRace_init (addr : Word) : (recordRace addr s).init = s.init := rfl
@[simp] theorem recordRace_xorout (addr : Word) : (recordRace addr s).xorout = s.xorout := rfl
@[simp] theorem recordRace_daddr (addr : Word) : (recordRace addr s).daddr = s.daddr := rfl
@[simp] theorem recordRace_dlen (addr : Word) : (recordRace addr s).dlen = s.dlen := rfl
@[simp] theorem recordRace_opa (addr : Word) : (recordRace addr s).opa = s.opa := rfl
@[simp] theorem recordRace_busy (addr : Word) : (recordRace addr s).busy = s.busy := rfl
@[simp] theorem recordRace_tvalid (addr : Word) : (recordRace addr s).tvalid = s.tvalid := rfl
@[simp] theorem recordRace_twidth (addr : Word) : (recordRace addr s).twidth = s.twidth := rfl
@[simp] theorem recordRace_err (addr : Word) : (recordRace addr s).err = s.err := rfl
@[simp] theorem recordRace_ovr (addr : Word) : (recordRace addr s).ovr = s.ovr := rfl
@[simp] theorem recordRace_result (addr : Word) : (recordRace addr s).result = s.result := rfl
@[simp] theorem recordRace_acc (addr : Word) : (recordRace addr s).acc = s.acc := rfl
@[simp] theorem recordRace_table (addr : Word) : (recordRace addr s).table = s.table := rfl
@[simp] theorem recordRace_latch (addr : Word) : (recordRace addr s).latch = s.latch := rfl
@[simp] theorem recordRace_faults (addr : Word) : (recordRace addr s).faults = s.faults ++ [.bufferRace addr] := rfl
@[simp] theorem recordRace_mem (addr : Word) : (recordRace addr s).mem = s.mem := rfl
@[simp] theorem recordRace_platform (addr : Word) : (recordRace addr s).platform = s.platform := rfl
@[simp] theorem recordRace_raced (addr : Word) : (recordRace addr s).raced = true := rfl
@[simp] theorem recordRace_draws (addr : Word) : (recordRace addr s).draws = s.draws := rfl
@[simp] theorem recordRace_reads (addr : Word) : (recordRace addr s).reads = s.reads := rfl
@[simp] theorem recordRace_program (addr : Word) : (recordRace addr s).program = s.program := rfl
@[simp] theorem recordRace_schedule (addr : Word) : (recordRace addr s).schedule = s.schedule := rfl

/-! `storeBytes` -/

@[simp] theorem storeBytes_width (addr : Word) (size : Access) (data : BitVec 64) : (storeBytes addr size data s).width = s.width := rfl
@[simp] theorem storeBytes_refin (addr : Word) (size : Access) (data : BitVec 64) : (storeBytes addr size data s).refin = s.refin := rfl
@[simp] theorem storeBytes_refout (addr : Word) (size : Access) (data : BitVec 64) : (storeBytes addr size data s).refout = s.refout := rfl
@[simp] theorem storeBytes_poly (addr : Word) (size : Access) (data : BitVec 64) : (storeBytes addr size data s).poly = s.poly := rfl
@[simp] theorem storeBytes_init (addr : Word) (size : Access) (data : BitVec 64) : (storeBytes addr size data s).init = s.init := rfl
@[simp] theorem storeBytes_xorout (addr : Word) (size : Access) (data : BitVec 64) : (storeBytes addr size data s).xorout = s.xorout := rfl
@[simp] theorem storeBytes_daddr (addr : Word) (size : Access) (data : BitVec 64) : (storeBytes addr size data s).daddr = s.daddr := rfl
@[simp] theorem storeBytes_dlen (addr : Word) (size : Access) (data : BitVec 64) : (storeBytes addr size data s).dlen = s.dlen := rfl
@[simp] theorem storeBytes_opa (addr : Word) (size : Access) (data : BitVec 64) : (storeBytes addr size data s).opa = s.opa := rfl
@[simp] theorem storeBytes_busy (addr : Word) (size : Access) (data : BitVec 64) : (storeBytes addr size data s).busy = s.busy := rfl
@[simp] theorem storeBytes_tvalid (addr : Word) (size : Access) (data : BitVec 64) : (storeBytes addr size data s).tvalid = s.tvalid := rfl
@[simp] theorem storeBytes_twidth (addr : Word) (size : Access) (data : BitVec 64) : (storeBytes addr size data s).twidth = s.twidth := rfl
@[simp] theorem storeBytes_err (addr : Word) (size : Access) (data : BitVec 64) : (storeBytes addr size data s).err = s.err := rfl
@[simp] theorem storeBytes_ovr (addr : Word) (size : Access) (data : BitVec 64) : (storeBytes addr size data s).ovr = s.ovr := rfl
@[simp] theorem storeBytes_result (addr : Word) (size : Access) (data : BitVec 64) : (storeBytes addr size data s).result = s.result := rfl
@[simp] theorem storeBytes_acc (addr : Word) (size : Access) (data : BitVec 64) : (storeBytes addr size data s).acc = s.acc := rfl
@[simp] theorem storeBytes_table (addr : Word) (size : Access) (data : BitVec 64) : (storeBytes addr size data s).table = s.table := rfl
@[simp] theorem storeBytes_latch (addr : Word) (size : Access) (data : BitVec 64) : (storeBytes addr size data s).latch = s.latch := rfl
@[simp] theorem storeBytes_faults (addr : Word) (size : Access) (data : BitVec 64) : (storeBytes addr size data s).faults = s.faults := rfl
@[simp] theorem storeBytes_mem (addr : Word) (size : Access) (data : BitVec 64) : (storeBytes addr size data s).mem = memSetList s.mem addr.toNat (laneBytes s.platform.endian size data) := rfl
@[simp] theorem storeBytes_platform (addr : Word) (size : Access) (data : BitVec 64) : (storeBytes addr size data s).platform = s.platform := rfl
@[simp] theorem storeBytes_raced (addr : Word) (size : Access) (data : BitVec 64) : (storeBytes addr size data s).raced = s.raced := rfl
@[simp] theorem storeBytes_draws (addr : Word) (size : Access) (data : BitVec 64) : (storeBytes addr size data s).draws = s.draws := rfl
@[simp] theorem storeBytes_reads (addr : Word) (size : Access) (data : BitVec 64) : (storeBytes addr size data s).reads = s.reads := rfl
@[simp] theorem storeBytes_program (addr : Word) (size : Access) (data : BitVec 64) : (storeBytes addr size data s).program = s.program := rfl
@[simp] theorem storeBytes_schedule (addr : Word) (size : Access) (data : BitVec 64) : (storeBytes addr size data s).schedule = s.schedule := rfl

/-! `performReflect` -/

@[simp] theorem performReflect_width (a : Word) (n : BitVec 6) : (performReflect a n s).width = s.width := rfl
@[simp] theorem performReflect_refin (a : Word) (n : BitVec 6) : (performReflect a n s).refin = s.refin := rfl
@[simp] theorem performReflect_refout (a : Word) (n : BitVec 6) : (performReflect a n s).refout = s.refout := rfl
@[simp] theorem performReflect_poly (a : Word) (n : BitVec 6) : (performReflect a n s).poly = s.poly := rfl
@[simp] theorem performReflect_init (a : Word) (n : BitVec 6) : (performReflect a n s).init = s.init := rfl
@[simp] theorem performReflect_xorout (a : Word) (n : BitVec 6) : (performReflect a n s).xorout = s.xorout := rfl
@[simp] theorem performReflect_daddr (a : Word) (n : BitVec 6) : (performReflect a n s).daddr = s.daddr := rfl
@[simp] theorem performReflect_dlen (a : Word) (n : BitVec 6) : (performReflect a n s).dlen = s.dlen := rfl
@[simp] theorem performReflect_opa (a : Word) (n : BitVec 6) : (performReflect a n s).opa = s.opa := rfl
@[simp] theorem performReflect_busy (a : Word) (n : BitVec 6) : (performReflect a n s).busy = false := rfl
@[simp] theorem performReflect_tvalid (a : Word) (n : BitVec 6) : (performReflect a n s).tvalid = s.tvalid := rfl
@[simp] theorem performReflect_twidth (a : Word) (n : BitVec 6) : (performReflect a n s).twidth = s.twidth := rfl
@[simp] theorem performReflect_err (a : Word) (n : BitVec 6) : (performReflect a n s).err = s.err := rfl
@[simp] theorem performReflect_ovr (a : Word) (n : BitVec 6) : (performReflect a n s).ovr = s.ovr := rfl
@[simp] theorem performReflect_result (a : Word) (n : BitVec 6) : (performReflect a n s).result = reflectBits a n.toNat := rfl
@[simp] theorem performReflect_acc (a : Word) (n : BitVec 6) : (performReflect a n s).acc = s.acc := rfl
@[simp] theorem performReflect_table (a : Word) (n : BitVec 6) : (performReflect a n s).table = s.table := rfl
@[simp] theorem performReflect_latch (a : Word) (n : BitVec 6) : (performReflect a n s).latch = none := rfl
@[simp] theorem performReflect_faults (a : Word) (n : BitVec 6) : (performReflect a n s).faults = s.faults := rfl
@[simp] theorem performReflect_mem (a : Word) (n : BitVec 6) : (performReflect a n s).mem = s.mem := rfl
@[simp] theorem performReflect_platform (a : Word) (n : BitVec 6) : (performReflect a n s).platform = s.platform := rfl
@[simp] theorem performReflect_raced (a : Word) (n : BitVec 6) : (performReflect a n s).raced = false := rfl
@[simp] theorem performReflect_draws (a : Word) (n : BitVec 6) : (performReflect a n s).draws = s.draws := rfl
@[simp] theorem performReflect_reads (a : Word) (n : BitVec 6) : (performReflect a n s).reads = s.reads := rfl
@[simp] theorem performReflect_program (a : Word) (n : BitVec 6) : (performReflect a n s).program = s.program := rfl
@[simp] theorem performReflect_schedule (a : Word) (n : BitVec 6) : (performReflect a n s).schedule = s.schedule := rfl

/-! `performGentab` -/

@[simp] theorem performGentab_width (w : Width) (p : Word) : (performGentab w p s).width = s.width := rfl
@[simp] theorem performGentab_refin (w : Width) (p : Word) : (performGentab w p s).refin = s.refin := rfl
@[simp] theorem performGentab_refout (w : Width) (p : Word) : (performGentab w p s).refout = s.refout := rfl
@[simp] theorem performGentab_poly (w : Width) (p : Word) : (performGentab w p s).poly = s.poly := rfl
@[simp] theorem performGentab_init (w : Width) (p : Word) : (performGentab w p s).init = s.init := rfl
@[simp] theorem performGentab_xorout (w : Width) (p : Word) : (performGentab w p s).xorout = s.xorout := rfl
@[simp] theorem performGentab_daddr (w : Width) (p : Word) : (performGentab w p s).daddr = s.daddr := rfl
@[simp] theorem performGentab_dlen (w : Width) (p : Word) : (performGentab w p s).dlen = s.dlen := rfl
@[simp] theorem performGentab_opa (w : Width) (p : Word) : (performGentab w p s).opa = s.opa := rfl
@[simp] theorem performGentab_busy (w : Width) (p : Word) : (performGentab w p s).busy = false := rfl
@[simp] theorem performGentab_tvalid (w : Width) (p : Word) : (performGentab w p s).tvalid = true := rfl
@[simp] theorem performGentab_twidth (w : Width) (p : Word) : (performGentab w p s).twidth = widthCode w := rfl
@[simp] theorem performGentab_err (w : Width) (p : Word) : (performGentab w p s).err = s.err := rfl
@[simp] theorem performGentab_ovr (w : Width) (p : Word) : (performGentab w p s).ovr = s.ovr := rfl
@[simp] theorem performGentab_result (w : Width) (p : Word) : (performGentab w p s).result = s.result := rfl
@[simp] theorem performGentab_acc (w : Width) (p : Word) : (performGentab w p s).acc = s.acc := rfl
@[simp] theorem performGentab_table (w : Width) (p : Word) : (performGentab w p s).table = genTable w p := rfl
@[simp] theorem performGentab_latch (w : Width) (p : Word) : (performGentab w p s).latch = none := rfl
@[simp] theorem performGentab_faults (w : Width) (p : Word) : (performGentab w p s).faults = s.faults := rfl
@[simp] theorem performGentab_mem (w : Width) (p : Word) : (performGentab w p s).mem = s.mem := rfl
@[simp] theorem performGentab_platform (w : Width) (p : Word) : (performGentab w p s).platform = s.platform := rfl
@[simp] theorem performGentab_raced (w : Width) (p : Word) : (performGentab w p s).raced = false := rfl
@[simp] theorem performGentab_draws (w : Width) (p : Word) : (performGentab w p s).draws = s.draws := rfl
@[simp] theorem performGentab_reads (w : Width) (p : Word) : (performGentab w p s).reads = s.reads := rfl
@[simp] theorem performGentab_program (w : Width) (p : Word) : (performGentab w p s).program = s.program := rfl
@[simp] theorem performGentab_schedule (w : Width) (p : Word) : (performGentab w p s).schedule = s.schedule := rfl

/-! `computeBusError` -/

@[simp] theorem computeBusError_width : (computeBusError s).width = s.width := rfl
@[simp] theorem computeBusError_refin : (computeBusError s).refin = s.refin := rfl
@[simp] theorem computeBusError_refout : (computeBusError s).refout = s.refout := rfl
@[simp] theorem computeBusError_poly : (computeBusError s).poly = s.poly := rfl
@[simp] theorem computeBusError_init : (computeBusError s).init = s.init := rfl
@[simp] theorem computeBusError_xorout : (computeBusError s).xorout = s.xorout := rfl
@[simp] theorem computeBusError_daddr : (computeBusError s).daddr = s.daddr := rfl
@[simp] theorem computeBusError_dlen : (computeBusError s).dlen = s.dlen := rfl
@[simp] theorem computeBusError_opa : (computeBusError s).opa = s.opa := rfl
@[simp] theorem computeBusError_busy : (computeBusError s).busy = s.busy := rfl
@[simp] theorem computeBusError_tvalid : (computeBusError s).tvalid = s.tvalid := rfl
@[simp] theorem computeBusError_twidth : (computeBusError s).twidth = s.twidth := rfl
@[simp] theorem computeBusError_err : (computeBusError s).err = errBus := rfl
@[simp] theorem computeBusError_ovr : (computeBusError s).ovr = s.ovr := rfl
@[simp] theorem computeBusError_result : (computeBusError s).result = s.result := rfl
@[simp] theorem computeBusError_acc : (computeBusError s).acc = freshWord s := rfl
@[simp] theorem computeBusError_table : (computeBusError s).table = s.table := rfl
@[simp] theorem computeBusError_latch : (computeBusError s).latch = s.latch := rfl
@[simp] theorem computeBusError_faults : (computeBusError s).faults = s.faults := rfl
@[simp] theorem computeBusError_mem : (computeBusError s).mem = s.mem := rfl
@[simp] theorem computeBusError_platform : (computeBusError s).platform = s.platform := rfl
@[simp] theorem computeBusError_raced : (computeBusError s).raced = s.raced := rfl
@[simp] theorem computeBusError_draws : (computeBusError s).draws = s.draws + 1 := rfl
@[simp] theorem computeBusError_reads : (computeBusError s).reads = s.reads := rfl
@[simp] theorem computeBusError_program : (computeBusError s).program = s.program := rfl
@[simp] theorem computeBusError_schedule : (computeBusError s).schedule = s.schedule := rfl

/-! `computeResult` -/

@[simp] theorem computeResult_width (w : Width) (ro : Bool) (x a : Word) : (computeResult w ro x a s).width = s.width := rfl
@[simp] theorem computeResult_refin (w : Width) (ro : Bool) (x a : Word) : (computeResult w ro x a s).refin = s.refin := rfl
@[simp] theorem computeResult_refout (w : Width) (ro : Bool) (x a : Word) : (computeResult w ro x a s).refout = s.refout := rfl
@[simp] theorem computeResult_poly (w : Width) (ro : Bool) (x a : Word) : (computeResult w ro x a s).poly = s.poly := rfl
@[simp] theorem computeResult_init (w : Width) (ro : Bool) (x a : Word) : (computeResult w ro x a s).init = s.init := rfl
@[simp] theorem computeResult_xorout (w : Width) (ro : Bool) (x a : Word) : (computeResult w ro x a s).xorout = s.xorout := rfl
@[simp] theorem computeResult_daddr (w : Width) (ro : Bool) (x a : Word) : (computeResult w ro x a s).daddr = s.daddr := rfl
@[simp] theorem computeResult_dlen (w : Width) (ro : Bool) (x a : Word) : (computeResult w ro x a s).dlen = s.dlen := rfl
@[simp] theorem computeResult_opa (w : Width) (ro : Bool) (x a : Word) : (computeResult w ro x a s).opa = s.opa := rfl
@[simp] theorem computeResult_busy (w : Width) (ro : Bool) (x a : Word) : (computeResult w ro x a s).busy = s.busy := rfl
@[simp] theorem computeResult_tvalid (w : Width) (ro : Bool) (x a : Word) : (computeResult w ro x a s).tvalid = s.tvalid := rfl
@[simp] theorem computeResult_twidth (w : Width) (ro : Bool) (x a : Word) : (computeResult w ro x a s).twidth = s.twidth := rfl
@[simp] theorem computeResult_err (w : Width) (ro : Bool) (x a : Word) : (computeResult w ro x a s).err = s.err := rfl
@[simp] theorem computeResult_ovr (w : Width) (ro : Bool) (x a : Word) : (computeResult w ro x a s).ovr = s.ovr := rfl
@[simp] theorem computeResult_result (w : Width) (ro : Bool) (x a : Word) : (computeResult w ro x a s).result = finalValue w ro x a := rfl
@[simp] theorem computeResult_acc (w : Width) (ro : Bool) (x a : Word) : (computeResult w ro x a s).acc = a := rfl
@[simp] theorem computeResult_table (w : Width) (ro : Bool) (x a : Word) : (computeResult w ro x a s).table = s.table := rfl
@[simp] theorem computeResult_latch (w : Width) (ro : Bool) (x a : Word) : (computeResult w ro x a s).latch = s.latch := rfl
@[simp] theorem computeResult_faults (w : Width) (ro : Bool) (x a : Word) : (computeResult w ro x a s).faults = s.faults := rfl
@[simp] theorem computeResult_mem (w : Width) (ro : Bool) (x a : Word) : (computeResult w ro x a s).mem = s.mem := rfl
@[simp] theorem computeResult_platform (w : Width) (ro : Bool) (x a : Word) : (computeResult w ro x a s).platform = s.platform := rfl
@[simp] theorem computeResult_raced (w : Width) (ro : Bool) (x a : Word) : (computeResult w ro x a s).raced = s.raced := rfl
@[simp] theorem computeResult_draws (w : Width) (ro : Bool) (x a : Word) : (computeResult w ro x a s).draws = s.draws := rfl
@[simp] theorem computeResult_reads (w : Width) (ro : Bool) (x a : Word) : (computeResult w ro x a s).reads = s.reads := rfl
@[simp] theorem computeResult_program (w : Width) (ro : Bool) (x a : Word) : (computeResult w ro x a s).program = s.program := rfl
@[simp] theorem computeResult_schedule (w : Width) (ro : Bool) (x a : Word) : (computeResult w ro x a s).schedule = s.schedule := rfl

/-! `computeRaced` -/

@[simp] theorem computeRaced_width : (computeRaced s).width = s.width := rfl
@[simp] theorem computeRaced_refin : (computeRaced s).refin = s.refin := rfl
@[simp] theorem computeRaced_refout : (computeRaced s).refout = s.refout := rfl
@[simp] theorem computeRaced_poly : (computeRaced s).poly = s.poly := rfl
@[simp] theorem computeRaced_init : (computeRaced s).init = s.init := rfl
@[simp] theorem computeRaced_xorout : (computeRaced s).xorout = s.xorout := rfl
@[simp] theorem computeRaced_daddr : (computeRaced s).daddr = s.daddr := rfl
@[simp] theorem computeRaced_dlen : (computeRaced s).dlen = s.dlen := rfl
@[simp] theorem computeRaced_opa : (computeRaced s).opa = s.opa := rfl
@[simp] theorem computeRaced_busy : (computeRaced s).busy = s.busy := rfl
@[simp] theorem computeRaced_tvalid : (computeRaced s).tvalid = s.tvalid := rfl
@[simp] theorem computeRaced_twidth : (computeRaced s).twidth = s.twidth := rfl
@[simp] theorem computeRaced_err : (computeRaced s).err = s.err := rfl
@[simp] theorem computeRaced_ovr : (computeRaced s).ovr = s.ovr := rfl
@[simp] theorem computeRaced_result : (computeRaced s).result = Config.freeWord (s.draws + 1) := rfl
@[simp] theorem computeRaced_acc : (computeRaced s).acc = Config.freeWord s.draws := rfl
@[simp] theorem computeRaced_table : (computeRaced s).table = s.table := rfl
@[simp] theorem computeRaced_latch : (computeRaced s).latch = s.latch := rfl
@[simp] theorem computeRaced_faults : (computeRaced s).faults = s.faults := rfl
@[simp] theorem computeRaced_mem : (computeRaced s).mem = s.mem := rfl
@[simp] theorem computeRaced_platform : (computeRaced s).platform = s.platform := rfl
@[simp] theorem computeRaced_raced : (computeRaced s).raced = s.raced := rfl
@[simp] theorem computeRaced_draws : (computeRaced s).draws = s.draws + 2 := rfl
@[simp] theorem computeRaced_reads : (computeRaced s).reads = s.reads := rfl
@[simp] theorem computeRaced_program : (computeRaced s).program = s.program := rfl
@[simp] theorem computeRaced_schedule : (computeRaced s).schedule = s.schedule := rfl

/-! `takeMove` -/

@[simp] theorem takeMove_width : (takeMove s).width = s.width := rfl
@[simp] theorem takeMove_refin : (takeMove s).refin = s.refin := rfl
@[simp] theorem takeMove_refout : (takeMove s).refout = s.refout := rfl
@[simp] theorem takeMove_poly : (takeMove s).poly = s.poly := rfl
@[simp] theorem takeMove_init : (takeMove s).init = s.init := rfl
@[simp] theorem takeMove_xorout : (takeMove s).xorout = s.xorout := rfl
@[simp] theorem takeMove_daddr : (takeMove s).daddr = s.daddr := rfl
@[simp] theorem takeMove_dlen : (takeMove s).dlen = s.dlen := rfl
@[simp] theorem takeMove_opa : (takeMove s).opa = s.opa := rfl
@[simp] theorem takeMove_busy : (takeMove s).busy = s.busy := rfl
@[simp] theorem takeMove_tvalid : (takeMove s).tvalid = s.tvalid := rfl
@[simp] theorem takeMove_twidth : (takeMove s).twidth = s.twidth := rfl
@[simp] theorem takeMove_err : (takeMove s).err = s.err := rfl
@[simp] theorem takeMove_ovr : (takeMove s).ovr = s.ovr := rfl
@[simp] theorem takeMove_result : (takeMove s).result = s.result := rfl
@[simp] theorem takeMove_acc : (takeMove s).acc = s.acc := rfl
@[simp] theorem takeMove_table : (takeMove s).table = s.table := rfl
@[simp] theorem takeMove_latch : (takeMove s).latch = s.latch := rfl
@[simp] theorem takeMove_faults : (takeMove s).faults = s.faults := rfl
@[simp] theorem takeMove_mem : (takeMove s).mem = s.mem := rfl
@[simp] theorem takeMove_platform : (takeMove s).platform = s.platform := rfl
@[simp] theorem takeMove_raced : (takeMove s).raced = s.raced := rfl
@[simp] theorem takeMove_draws : (takeMove s).draws = s.draws := rfl
@[simp] theorem takeMove_reads : (takeMove s).reads = s.reads := rfl
@[simp] theorem takeMove_program : (takeMove s).program = s.program := rfl
@[simp] theorem takeMove_schedule : (takeMove s).schedule = s.schedule.tail := rfl

/-! `takeAction` -/

@[simp] theorem takeAction_width : (takeAction s).width = s.width := rfl
@[simp] theorem takeAction_refin : (takeAction s).refin = s.refin := rfl
@[simp] theorem takeAction_refout : (takeAction s).refout = s.refout := rfl
@[simp] theorem takeAction_poly : (takeAction s).poly = s.poly := rfl
@[simp] theorem takeAction_init : (takeAction s).init = s.init := rfl
@[simp] theorem takeAction_xorout : (takeAction s).xorout = s.xorout := rfl
@[simp] theorem takeAction_daddr : (takeAction s).daddr = s.daddr := rfl
@[simp] theorem takeAction_dlen : (takeAction s).dlen = s.dlen := rfl
@[simp] theorem takeAction_opa : (takeAction s).opa = s.opa := rfl
@[simp] theorem takeAction_busy : (takeAction s).busy = s.busy := rfl
@[simp] theorem takeAction_tvalid : (takeAction s).tvalid = s.tvalid := rfl
@[simp] theorem takeAction_twidth : (takeAction s).twidth = s.twidth := rfl
@[simp] theorem takeAction_err : (takeAction s).err = s.err := rfl
@[simp] theorem takeAction_ovr : (takeAction s).ovr = s.ovr := rfl
@[simp] theorem takeAction_result : (takeAction s).result = s.result := rfl
@[simp] theorem takeAction_acc : (takeAction s).acc = s.acc := rfl
@[simp] theorem takeAction_table : (takeAction s).table = s.table := rfl
@[simp] theorem takeAction_latch : (takeAction s).latch = s.latch := rfl
@[simp] theorem takeAction_faults : (takeAction s).faults = s.faults := rfl
@[simp] theorem takeAction_mem : (takeAction s).mem = s.mem := rfl
@[simp] theorem takeAction_platform : (takeAction s).platform = s.platform := rfl
@[simp] theorem takeAction_raced : (takeAction s).raced = s.raced := rfl
@[simp] theorem takeAction_draws : (takeAction s).draws = s.draws := rfl
@[simp] theorem takeAction_reads : (takeAction s).reads = s.reads := rfl
@[simp] theorem takeAction_program : (takeAction s).program = s.program.tail := rfl
@[simp] theorem takeAction_schedule : (takeAction s).schedule = s.schedule.tail := rfl

/-! `resetBlock` -/

@[simp] theorem resetBlock_width : (resetBlock s).width = 0 := rfl
@[simp] theorem resetBlock_refin : (resetBlock s).refin = false := rfl
@[simp] theorem resetBlock_refout : (resetBlock s).refout = false := rfl
@[simp] theorem resetBlock_poly : (resetBlock s).poly = 0 := rfl
@[simp] theorem resetBlock_init : (resetBlock s).init = 0 := rfl
@[simp] theorem resetBlock_xorout : (resetBlock s).xorout = 0 := rfl
@[simp] theorem resetBlock_daddr : (resetBlock s).daddr = 0 := rfl
@[simp] theorem resetBlock_dlen : (resetBlock s).dlen = 0 := rfl
@[simp] theorem resetBlock_opa : (resetBlock s).opa = 0 := rfl
@[simp] theorem resetBlock_busy : (resetBlock s).busy = false := rfl
@[simp] theorem resetBlock_tvalid : (resetBlock s).tvalid = false := rfl
@[simp] theorem resetBlock_twidth : (resetBlock s).twidth = 0 := rfl
@[simp] theorem resetBlock_err : (resetBlock s).err = 0 := rfl
@[simp] theorem resetBlock_ovr : (resetBlock s).ovr = false := rfl
@[simp] theorem resetBlock_result : (resetBlock s).result = 0 := rfl
@[simp] theorem resetBlock_acc : (resetBlock s).acc = 0 := rfl
@[simp] theorem resetBlock_table : (resetBlock s).table = Vector.replicate 256 none := rfl
@[simp] theorem resetBlock_latch : (resetBlock s).latch = none := rfl
@[simp] theorem resetBlock_faults : (resetBlock s).faults = s.faults := rfl
@[simp] theorem resetBlock_mem : (resetBlock s).mem = s.mem := rfl
@[simp] theorem resetBlock_platform : (resetBlock s).platform = s.platform := rfl
@[simp] theorem resetBlock_raced : (resetBlock s).raced = false := rfl
@[simp] theorem resetBlock_draws : (resetBlock s).draws = s.draws := rfl
@[simp] theorem resetBlock_reads : (resetBlock s).reads = s.reads := rfl
@[simp] theorem resetBlock_program : (resetBlock s).program = s.program := rfl
@[simp] theorem resetBlock_schedule : (resetBlock s).schedule = s.schedule := rfl

end Sys2Proof.Machine
end

