-- ==== Sys2Proof/Laws/Ops.lean ====
section
/-! SUPPORT. One lemma per shared operation that says everything it can do; proofs cite these and do not unfold the operation. -/

namespace Sys2Proof.Machine

variable {s t : State}

/-- `W(code)` is defined exactly at the code of a width. -/
theorem widthOfCode_eq_some {c : BitVec 2} {w : Width} : widthOfCode c = some w ↔ c = widthCode w := by
  cases w <;> revert c <;> decide

/-- `W(code)` is undefined exactly at code 3. -/
theorem widthOfCode_eq_none {c : BitVec 2} : widthOfCode c = none ↔ c = 3 := by
  revert c; decide

/-- The code of a width decodes to it. -/
@[simp] theorem widthOfCode_widthCode (w : Width) : widthOfCode (widthCode w) = some w := by
  cases w <;> rfl

/-- Truncating twice is truncating once. -/
@[simp] theorem truncW_truncW (w : Width) (v : Word) : truncW w (truncW w v) = truncW w v := by
  simp [truncW, BitVec.and_assoc]

/-- Truncation commutes with XOR. -/
theorem truncW_xor (w : Width) (u v : Word) : truncW w (u ^^^ v) = truncW w u ^^^ truncW w v := by
  simp only [truncW]
  ext i hi
  simp only [BitVec.getElem_and, BitVec.getElem_xor, Bool.and_xor_distrib_right]

/-- A command written to CMD is ignored, rejected or accepted (60_exceptions.md R171, R178). -/
theorem exec_cases {i : Instr} (h : exec i s = .next t) :
    (s.busy = true ∧ t = overrun s) ∨
    (s.busy = false ∧ ∃ code, (code = errArg ∨ code = errTable ∨ code = errRange) ∧ t = raiseErr code s) ∨
    (s.busy = false ∧ i = .gentab ∧ ∃ w, widthOfCode s.width = some w ∧
      t = accept (gentabLatch w s) { s with tvalid := false }) ∨
    (s.busy = false ∧ i = .compute ∧ ∃ w, widthOfCode s.width = some w ∧ tableMatches w s = true ∧
      bufferInRange s.daddr s.dlen = true ∧ t = accept (computeLatch w s) s) ∨
    (s.busy = false ∧ ∃ n, i = .reflect n ∧ n ≤ 32 ∧ t = accept (reflectLatch n s) s) := by
  cases hb : s.busy with
  | true =>
    cases i <;> simp [exec, execGentab, execCompute, execReflect, hb] at h <;> simp [h]
  | false =>
    cases i with
    | gentab =>
      cases hw : widthOfCode s.width with
      | none => simp [exec, execGentab, hb, hw] at h; simp [← h]
      | some w => simp [exec, execGentab, hb, hw] at h; simp [← h]
    | compute =>
      cases hw : widthOfCode s.width with
      | none => simp [exec, execCompute, hb, hw] at h; simp [← h]
      | some w =>
        cases hm : tableMatches w s with
        | false => simp [exec, execCompute, hb, hw, hm] at h; simp [← h]
        | true =>
          cases hr : bufferInRange s.daddr s.dlen with
          | false => simp [exec, execCompute, hb, hw, hm, hr] at h; simp [← h]
          | true => simp [exec, execCompute, hb, hw, hm, hr] at h; simp [← h, hm]
    | reflect n =>
      by_cases hn : 32 < n
      · simp [exec, execReflect, hb, hn] at h; simp [← h]
      · simp [exec, execReflect, hb, hn] at h; simp [← h, Nat.not_lt.mp hn]

/-- A command written to CMD never stops the machine. -/
theorem exec_next (i : Instr) (s : State) : ∃ t, exec i s = .next t := by
  cases i with
  | gentab => simp only [exec, execGentab]; split <;> [skip; split] <;> exact ⟨_, rfl⟩
  | compute =>
    simp only [exec, execCompute]
    split <;> [skip; split <;> [skip; split <;> [skip; split]]] <;> exact ⟨_, rfl⟩
  | reflect n => simp only [exec, execReflect]; split <;> [skip; split] <;> exact ⟨_, rfl⟩

/-- A word written to CMD is ignored, reported as illegal, or is its command (60_exceptions.md R171). -/
theorem issue_cases {v : Word} (h : issue v s = .next t) :
    (s.busy = true ∧ t = overrun s) ∨
    (s.busy = false ∧ (∃ why, decode v = .illegal why) ∧ t = raiseErr errIllegal s) ∨
    (s.busy = false ∧ ∃ i, decode v = .command i ∧ exec i s = .next t) := by
  cases hb : s.busy with
  | true => simp [issue, hb] at h; simp [h]
  | false =>
    cases hd : decode v with
    | illegal why => simp [issue, hb, hd] at h; simp [h]
    | command i => simp [issue, hb, hd] at h; simp [h]

/-- A word written to CMD never stops the machine. -/
theorem issue_next (v : Word) (s : State) : ∃ t, issue v s = .next t := by
  simp only [issue]
  split
  · exact ⟨_, rfl⟩
  · split
    · exact ⟨_, rfl⟩
    · exact exec_next _ s

/-- What the byte step reads of the state: TABLE, and the draw count for entries nothing has written. -/
theorem tableEntry_congr (w : Width) (ht : t.table = s.table) (hd : t.draws = s.draws) : tableEntry w t = tableEntry w s := by
  funext k; simp only [tableEntry, ht, hd]

/-- What the byte loop reads of the state: TABLE, memory, the platform, and the draw count for entries nothing has written. -/
theorem computeAcc_congr (w : Width) (ri : Bool) (i a n : Word) (ht : t.table = s.table) (hd : t.draws = s.draws)
    (hm : t.mem = s.mem) (hp : t.platform = s.platform) : computeAcc w ri i a n t = computeAcc w ri i a n s := by
  simp only [computeAcc, tableEntry_congr w ht hd, hm, hp]

/-- The ways the Engine step of COMPUTE can end: refused or not, raced or not (42_crc_compute.md R148, R150; 20_memory.md R77). -/
theorem performCompute_cases (w : Width) (ri ro : Bool) (i x a n : Word) (s : State) :
    (s.raced = false ∧ computeAcc w ri i a n s = none ∧
      performCompute w ri ro i x a n s = complete (computeBusError s)) ∨
    (s.raced = false ∧ ∃ acc, computeAcc w ri i a n s = some acc ∧
      performCompute w ri ro i x a n s = complete (computeResult w ro x acc s)) ∨
    (s.raced = true ∧ computeAcc w ri i a n s = none ∧
      performCompute w ri ro i x a n s = complete (computeRaced (computeBusError s))) ∨
    (s.raced = true ∧ ∃ acc, computeAcc w ri i a n s = some acc ∧
      performCompute w ri ro i x a n s = complete (computeRaced (computeResult w ro x acc s))) := by
  cases hr : s.raced <;> cases hc : computeAcc w ri i a n s <;> simp [performCompute, hr, hc]

/-- The Engine step of COMPUTE as one record update, in terms of the accumulator the byte loop ends with. -/
theorem performCompute_eq (w : Width) (ri ro : Bool) (i x a n : Word) (s : State) (c : Option Word)
    (hc : computeAcc w ri i a n s = c) :
    performCompute w ri ro i x a n s =
      { s with
        err := if c.isNone then errBus else s.err
        acc := if s.raced then Config.freeWord (s.draws + if c.isNone then 1 else 0) else c.getD (Config.freeWord s.draws)
        result :=
          if s.raced then Config.freeWord (s.draws + (if c.isNone then 1 else 0) + 1)
          else (c.map (finalValue w ro x)).getD s.result
        draws := s.draws + (if c.isNone then 1 else 0) + if s.raced then 2 else 0
        latch := none
        busy := false
        raced := false } := by
  subst hc
  cases hr : s.raced <;> cases hc : computeAcc w ri i a n s <;>
    simp [performCompute, hr, hc, complete, computeRaced, computeBusError, computeResult, advanceDraws, raiseErr, freshWord]

/-- The Engine's turn leaves the state alone or performs the latched command. -/
theorem engineTurn_cases (s : State) :
    (engineTurn s = s ∧ (s.busy = false ∨ s.latch = none)) ∨
    (s.busy = true ∧ ∃ l, s.latch = some l ∧ engineTurn s = perform l s) := by
  cases hb : s.busy with
  | false => simp [engineTurn, hb]
  | true => cases hl : s.latch <;> simp [engineTurn, hb, hl]

/-- A read changes nothing but the record of reads, the model faults and the count of draws. -/
theorem hostRead_eq (addr : Word) (size : Access) (s : State) :
    ∃ r fs d, hostRead addr size s = { s with reads := r :: s.reads, faults := s.faults ++ fs, draws := s.draws + d } := by
  have hr : ∀ x, (readSlot x s).2 = s ∨ (readSlot x s).2 = advanceDraws 1 s := by
    intro x
    cases x with
    | reg r => cases r <;> simp only [readSlot, readReg] <;> (try split) <;> simp [readAny]
    | unmapped => simp [readSlot]
    | table i =>
      simp only [readSlot, readTable]
      split <;> [skip; exact .inr rfl]
      split <;> [exact .inl rfl; exact .inr rfl]
  simp only [hostRead]
  split
  · split
    · rename_i off _ _
      rcases hr (slotOf off) with h | h
      · rw [h]; exact ⟨⟨addr, size, some (readSlot (slotOf off) s).1⟩, [], 0, by simp only [recordRead, List.append_nil, Nat.add_zero]⟩
      · rw [h]; exact ⟨⟨addr, size, some (readSlot (slotOf off) s).1⟩, [], 1, by simp only [recordRead, advanceDraws, List.append_nil]⟩
    · exact ⟨_, [_], 0, rfl⟩
  · exact ⟨⟨addr, size, none⟩, [], 0, by simp only [recordRead, List.append_nil, Nat.add_zero]⟩

/-- A write to what an offset selects is ignored, or has the one effect of its register (10_state.md R20, R21). -/
theorem writeSlot_cases {x : Slot} {v : Word} (h : writeSlot x v s = .next t) :
    t = s ∨
    (x = .reg .cfg ∧ t = writeCfg v s) ∨
    (x = .reg .poly ∧ t = { s with poly := v }) ∨
    (x = .reg .init ∧ t = { s with init := v }) ∨
    (x = .reg .xorout ∧ t = { s with xorout := v }) ∨
    (x = .reg .daddr ∧ t = { s with daddr := v }) ∨
    (x = .reg .dlen ∧ t = { s with dlen := v }) ∨
    (x = .reg .opa ∧ t = { s with opa := v }) ∨
    (x = .reg .status ∧ t = writeStatus v s) ∨
    (x = .reg .cmd ∧ issue v s = .next t) := by
  cases x with
  | unmapped => cases h; simp
  | table i => cases h; simp
  | reg r =>
    cases r
    case cmd => exact .inr (.inr (.inr (.inr (.inr (.inr (.inr (.inr (.inr ⟨rfl, h⟩))))))))
    all_goals cases h; simp

/-- A write to what an offset selects never stops the machine. -/
theorem writeSlot_next (x : Slot) (v : Word) (s : State) : ∃ t, writeSlot x v s = .next t := by
  cases x with
  | unmapped => exact ⟨_, rfl⟩
  | table i => exact ⟨_, rfl⟩
  | reg r =>
    cases r
    case cmd => exact issue_next v s
    all_goals exact ⟨_, rfl⟩

/-- An aligned offset selects a register exactly at that register's own offset. -/
theorem slotOf_eq_reg {off : BitVec 11} {r : Reg} (h : slotOf off = .reg r) : off = regOffset r := by
  revert off; cases r <;> decide

/-- What a host write can do to the state, when it does not stop the machine. -/
inductive WriteEffect (s : State) (addr : Word) : Access → BitVec 64 → State → Prop where
  /-- An aligned 32-bit write into the window: the window's own rules. -/
  | window (off : BitVec 11) (data : BitVec 64) (t : State) (ho : windowOffset s.platform addr = some off)
      (h : writeSlot (slotOf off) (data.setWidth 32) s = .next t) : WriteEffect s addr .word data t
  /-- Any other write into the window: the model fault alone. -/
  | badAccess (off : BitVec 11) (size : Access) (data : BitVec 64) (ho : windowOffset s.platform addr = some off) :
      WriteEffect s addr size data (recordFault (.badHostAccess off size) s)
  /-- A memory write into the latched buffer. -/
  | raced (size : Access) (data : BitVec 64) (ho : windowOffset s.platform addr = none)
      (hr : races addr (accessBytes size) s = true)
      (hb : addr.toNat + accessBytes size ≤ Config.addressSpace) :
      WriteEffect s addr size data (storeBytes addr size data (recordRace addr s))
  /-- Any other memory write. -/
  | stored (size : Access) (data : BitVec 64) (ho : windowOffset s.platform addr = none)
      (hr : races addr (accessBytes size) s = false)
      (hb : addr.toNat + accessBytes size ≤ Config.addressSpace) :
      WriteEffect s addr size data (storeBytes addr size data s)

/-- A host write that answers a next state had one of the four effects. -/
theorem hostWrite_effect {addr : Word} {size : Access} {data : BitVec 64} (h : hostWrite addr size data s = .next t) :
    WriteEffect s addr size data t := by
  simp only [hostWrite] at h
  split at h
  · rename_i off ho
    split at h
    · rename_i hw
      simp only [wordAccess, Bool.and_eq_true, beq_iff_eq] at hw
      obtain ⟨rfl, _⟩ := hw
      exact .window off data t ho h
    · cases h; exact .badAccess off size data ho
  · rename_i ho
    simp only [memoryWrite] at h
    split at h
    · cases h
    · rename_i hb
      cases h
      cases hr : races addr (accessBytes size) s with
      | true => simpa using WriteEffect.raced size data ho hr (Nat.not_lt.mp hb)
      | false => simpa using WriteEffect.stored size data ho hr (Nat.not_lt.mp hb)

/-- One turn of WAIT is a read of STATUS, and WAIT stays the host's next action while BUSY = 1 (30_encoding.md R91). -/
theorem hostWait_eq (s : State) :
    ∃ r fs d, hostWait s =
      { s with
        reads := r :: s.reads
        faults := s.faults ++ fs
        draws := s.draws + d
        program := if s.busy then .wait :: s.program else s.program } := by
  obtain ⟨r, fs, d, h⟩ := hostRead_eq (windowAddr s.platform (regOffset .status)) .word s
  refine ⟨r, fs, d, ?_⟩
  simp only [hostWait, h]
  cases s.busy <;> rfl

/-- The next action is the head of the program, in a step that is the Host's. -/
theorem nextAction_eq_some {a : HostAction} :
    nextAction s = some a ↔ nextMove s = .host ∧ ∃ acts, s.program = a :: acts := by
  simp only [nextAction]
  split <;> rename_i hm
  · simp [hm, List.head?_eq_some_iff]
  · simp [hm]

/-- A step of the Engine. -/
theorem step_engine (h : nextMove s = .engine) : step s = .next (engineTurn (takeMove s)) := by
  simp only [step, h, runMove]

/-- A step in which the reset input is asserted. -/
theorem step_reset (h : nextMove s = .reset) : step s = .next (resetBlock (takeMove s)) := by
  simp only [step, h, runMove]

/-- A step of the Host with no action left. -/
theorem step_idle (h : nextMove s = .host) (hp : s.program = []) : step s = .next (takeMove s) := by
  simp only [step, h, runMove, hostMove, takeMove_program, hp]

/-- A step of the Host with an action left. -/
theorem step_action {a : HostAction} (h : nextAction s = some a) : step s = hostStep a (takeAction s) := by
  obtain ⟨hm, acts, hp⟩ := nextAction_eq_some.mp h
  simp only [step, hm, runMove, hostMove, takeMove_program, hp, takeAction, List.tail_cons]

/-- A run whose first step answers a next state goes on from it. -/
theorem runSteps_next {k : Nat} (h : step s = .next t) : runSteps (k + 1) s = runSteps k t := by
  simp only [runSteps, h]

/-- A run made of two runs. -/
theorem runSteps_add {j k : Nat} (h : runSteps j s = .next t) : runSteps (j + k) s = runSteps k t := by
  induction j generalizing s with
  | zero => cases h; rw [Nat.zero_add]
  | succ j ih =>
    rw [Nat.succ_add]
    simp only [runSteps] at h ⊢
    split at h
    · exact ih h
    · cases h
    · cases h

/-- What one step that answers a next state has done. -/
theorem step_cases (h : step s = .next t) :
    (nextMove s = .engine ∧ t = engineTurn (takeMove s)) ∨
    (nextMove s = .reset ∧ t = resetBlock (takeMove s)) ∨
    (nextMove s = .host ∧ s.program = [] ∧ t = takeMove s) ∨
    (nextAction s = some .wait ∧ t = hostWait (takeAction s)) ∨
    (∃ addr size, nextAction s = some (.read addr size) ∧ t = hostRead addr size (takeAction s)) ∨
    (∃ addr size data, nextAction s = some (.write addr size data) ∧
      hostWrite addr size data (takeAction s) = .next t) := by
  cases hm : nextMove s with
  | engine => rw [step_engine hm] at h; cases h; simp
  | reset => rw [step_reset hm] at h; cases h; simp
  | host =>
    cases hp : s.program with
    | nil => rw [step_idle hm hp] at h; cases h; simp
    | cons a acts =>
      have ha : nextAction s = some a := nextAction_eq_some.mpr ⟨hm, acts, hp⟩
      rw [step_action ha] at h
      cases a with
      | wait => cases h; simp [ha]
      | read addr size => cases h; simp [ha]
      | write addr size data => exact .inr (.inr (.inr (.inr (.inr ⟨addr, size, data, ha, h⟩))))

/-- The assembler gives a command its word, and refuses exactly a count that does not fit the field (30_encoding.md R89). -/
theorem assemble_cases (i : Instr) :
    (i.wellFormed = true ∧ assemble i = some (encode i)) ∨ (∃ n, i = .reflect n ∧ 63 < n ∧ assemble i = none) := by
  cases i with
  | gentab => exact .inl ⟨rfl, rfl⟩
  | compute => exact .inl ⟨rfl, rfl⟩
  | reflect n =>
    by_cases h : n < 64
    · exact .inl (by simp [assemble, Instr.wellFormed, h])
    · exact .inr ⟨n, rfl, by omega, by simp [assemble, Instr.wellFormed, h]⟩

end Sys2Proof.Machine
end

