-- ==== Sys2Proof/Laws/PerInstr.lean ====
section
/-! SUPPORT. A fact about every command as it is written: its word fits its row of spec/opcode_table.json (30_encoding.md R83). -/

namespace Sys2Proof.Laws.RowWord

/-- The mask of a command's row. -/
def mask : Instr → Word
  | .gentab => 0xFFFFFFFF
  | .compute => 0xFFFFFFFF
  | .reflect _ => 0xFFFFC0FF

/-- The match value of a command's row. -/
def pattern : Instr → Word
  | .gentab => 0x00000001
  | .compute => 0x00000002
  | .reflect _ => 0x00000003

/-- A well-formed command's word has the row's fixed bits. -/
def Statement (i : Instr) : Prop :=
  i.wellFormed = true → encode i &&& mask i = pattern i

theorem gentab : Statement .gentab := fun _ => rfl

theorem compute : Statement .compute := fun _ => rfl

theorem reflect (n : Nat) : Statement (.reflect n) := by
  intro h
  have hn : n < 64 := of_decide_eq_true h
  exact (by decide : ∀ k : Fin 64, encode (.reflect k) &&& mask (.reflect k) = 0x00000003) ⟨n, hn⟩

end Sys2Proof.Laws.RowWord
end

