-- ==== Sys2Proof/Tests/Slice0.lean ====
section
/-! SUPPORT. Small tests whose expected values come from spec/, and for every claim with hypotheses a state that meets them. -/

namespace Sys2Proof.Tests

open Sys2Proof Sys2Proof.Machine

set_option maxRecDepth 4000

/-- A step or a command answers a next state, and that state passes a check. -/
def nextIs (o : Host.Outcome State Fault Refusal) (check : State → Bool) : Bool :=
  match o with
  | .next t => check t
  | .fault _ => false
  | .refused _ => false

/-- Idle, programmed for CRC-16/CCITT-FALSE (00_scope.md R13). -/
def idle16 : State := { State.reset with width := 1, poly := 0x00001021, init := 0x0000FFFF }

/-- Running a REFLECT of OPA = 0xF2 by 8. -/
def reflecting : State := { State.reset with latch := some (.reflect 0x000000F2 8), busy := true }

/-- Running a GENTAB of CRC-16/CCITT-FALSE. -/
def generating : State := { idle16 with latch := some (.gentab .w16 0x00001021), busy := true }

/-- Idle with the CRC-16/CCITT-FALSE table and the buffer 0F AA 00 55 at 0x1000 (95_test_vectors.md S4). -/
def ready16 : State :=
  { idle16 with
    table := genTable .w16 0x00001021, tvalid := true, twidth := 1
    daddr := 0x00001000, dlen := 4
    mem := [(0x1000, 0x0F), (0x1001, 0xAA), (0x1003, 0x55)] }

/-- Running the COMPUTE of that buffer. -/
def computing16 : State :=
  { ready16 with latch := some (.compute .w16 false false 0x0000FFFF 0 0x00001000 4), busy := true }

/-- Running a COMPUTE of one byte at address 5 with the all-zero 8-bit table. -/
def zeroComputing : State :=
  { State.reset with
    table := Vector.replicate 256 (some 0), tvalid := true
    latch := some (.compute .w8 false false 0x000000FF 0 5 1), busy := true }

/-- The same, on a platform that admits no read. -/
def refusedComputing : State := { zeroComputing with platform := { platformAtReset with readable := [] } }

/-! ### Well-formedness: a term that each check refuses -/

theorem test_wellFormed_count : (Instr.reflect 63).wellFormed = true ∧ (Instr.reflect 64).wellFormed = false := by decide

theorem test_wellFormed_region : Region.wellFormed ⟨0xFFFFFFFF, 1⟩ = true ∧ Region.wellFormed ⟨0xFFFFFFFF, 2⟩ = false := by decide

theorem test_wellFormed_base :
    Platform.wellFormed ⟨0x00000800, [], .big⟩ = true ∧ Platform.wellFormed ⟨0x00000400, [], .big⟩ = false := by decide

theorem test_wellFormed_admit : Platform.wellFormed ⟨0, [⟨1, Config.addressSpace⟩], .little⟩ = false := by decide

/-! ### Decoding, each word written out from 30_encoding.md R83 and R87 -/

theorem test_decode_gentab : decode 0b00000000000000000000000000000001#32 = .command .gentab := by decide

theorem test_decode_compute : decode 0b00000000000000000000000000000010#32 = .command .compute := by decide

theorem test_decode_reflect8 : decode 0b00000000000000000000100000000011#32 = .command (.reflect 8) := by decide

theorem test_decode_reflect33 : decode 0b00000000000000000010000100000011#32 = .command (.reflect 33) := by decide

theorem test_decode_bit14 : decode 0b00000000000000000100000000000011#32 = .illegal .reservedBits := by decide

theorem test_decode_count_on_gentab : decode 0b00000000000000000000000100000001#32 = .illegal .strayCount := by decide

theorem test_decode_zero : decode 0b00000000000000000000000000000000#32 = .illegal .reservedOp := by decide

/-- 30_encoding.md R89: the assembler refuses n > 63. -/
theorem test_assemble : assemble (.reflect 63) = some 0x00003F03 ∧ assemble (.reflect 64) = none := by decide

/-- 00_scope.md R13: CFG = 0xE is width code 2 with both flags. -/
theorem test_preset_cfg :
    cfgWord (writeCfg (presetWords .crc32Ethernet).1 State.reset) = 0x0000000E ∧
    (writeCfg (presetWords .crc32Ethernet).1 State.reset).width = widthCode .w32 := by decide

/-! ### The commands -/

/-- 40_reflect.md section 3, the row of N = 12. -/
theorem test_reflect_engine : reflectBits 0x12345678 12 = 0x000001E6 := by decide

/-- 95_test_vectors.md section 4.3: REFLECT 33 reads back STATUS 0x20. -/
theorem test_reflect_rejected : nextIs (exec (.reflect 33) State.reset) (fun t => statusWord t == 0x00000020) = true := by decide

/-- 95_test_vectors.md section 2.2: STATUS between the acceptance and the Engine step. -/
theorem test_gentab_accepted : nextIs (exec .gentab ready16) (fun t => statusWord t == 0x00000005) = true := by decide

/-- 41_table_generator.md R123, the example: TABLE[0xFF], and STATUS 0x6. -/
theorem test_gentab_engine :
    (engineTurn generating).table.get (0xFF : Byte).toFin = some 0x00001EF0 ∧
    statusWord (engineTurn generating) = 0x00000006 := by decide

/-- 95_test_vectors.md S2, the trace FF, 00, C4: at W = 8 the zero entry TABLE[0] takes the accumulator from 0xFF to 0 (R144). -/
theorem test_zero_entry_drops_acc :
    crcStep .w8 (genEntry .w8 0x0000001D) 0x000000FF 0xFF = 0 ∧
    crcStep .w8 (genEntry .w8 0x0000001D) 0 0xFF = 0x000000C4 := by decide

/-- 95_test_vectors.md E5: a buffer past the top is rejected with RANGE. -/
theorem test_compute_rejected :
    nextIs (exec .compute { ready16 with daddr := 0xFFFFFFFF, dlen := 2 }) (fun t => statusWord t == 0x00000046) = true := by
  decide

/-- 95_test_vectors.md S4: ACC and RESULT of 0F AA 00 55. -/
theorem test_compute_engine : (engineTurn computing16).acc = 0x00002023 ∧ (engineTurn computing16).result = 0x00002023 := by
  decide

/-! ### The host's accesses (95_test_vectors.md section 2.5 and 4.6) -/

theorem test_cfg_reads_low_bits :
    nextIs (writeReg .cfg 0xFFFFFFFF State.reset) (fun t => (readReg .cfg t).1 == 0x0000000F) = true := by decide

theorem test_status_write_clears_ovr_only :
    nextIs (writeReg .status 0xFFFFFFFF { computing16 with ovr := true })
      (fun t => statusWord t == 0x00000007) = true := by decide

theorem test_half_read_of_result :
    (hostRead (windowAddr platformAtReset 0x024) .half State.reset).faults = [.badHostAccess 0x024 .half] := by decide

theorem test_race_records_fault :
    nextIs (hostWrite 0x00000005 .byte 9 zeroComputing) (fun t => t.faults == [.bufferRace 0x00000005]) = true := by decide

theorem test_write_beside_buffer :
    nextIs (hostWrite 0x00000006 .byte 9 zeroComputing) (fun t => t.faults == [] && memByte t.mem 6 == 9) = true := by decide

theorem test_big_endian_word :
    laneBytes .big .word 0x11223344 = [0x11, 0x22, 0x33, 0x44] ∧ laneBytes .little .half 0x1122 = [0x22, 0x11] := by decide

theorem test_refused_read : (engineTurn refusedComputing).err = 5 ∧ (engineTurn refusedComputing).result = 0 := by decide

/-- 30_encoding.md R89, R90: a line with a count above 63 is refused; 63 is written as 0x00003F03. -/
theorem test_mnemonic_lines :
    scriptRefl platformAtReset 0 64 = none ∧
    scriptCommand platformAtReset (.reflect 63) = some [.write 0x4000001C .word 0x00003F03] := by decide

/-- 30_encoding.md R91: WAIT polls as often as the schedule has it, here three times, with a reset between two polls. -/
theorem test_wait_polls :
    nextIs (runSteps 4 { reflecting with program := [.wait], schedule := [.host, .host, .reset, .host] })
      (fun t => t.program == [] && t.reads.map (·.value) == [some 0, some 1, some 1]) = true := by decide

/-- 95_test_vectors.md section 4.5: REFLECT written before and after the Engine's step of GENTAB. -/
theorem test_schedules_of_program_e :
    nextIs (runSteps 1 { generating with program := [writeAction platformAtReset .cmd 0x00000803], schedule := [.host] })
      (fun t => statusWord t == 0x00000101) = true ∧
    nextIs (runSteps 2 { generating with program := [writeAction platformAtReset .cmd 0x00000803], schedule := [.engine, .host] })
      (fun t => statusWord t == 0x00000007) = true := by decide

/-- A command placed for the next step runs in it, straight from reset. -/
theorem test_fetch_word_runs :
    nextIs (step (State.reset.withFetchWord 32 0x00000803)) (fun t => t.latch == some (.reflect 0 8)) = true := by decide

/-! ### Witnesses: the hypotheses of each claim can be met -/

theorem witness_DecodeOfEncodeIsTheCommand : (Instr.reflect 63).wellFormed = true := by decide

theorem witness_EncodeOfDecodeIsTheWord : decode 0x00003F03 = .command (.reflect 63) := by decide

theorem witness_IllegalWordsAreReported : illegalWord 0x80000001 = true ∧ State.reset.busy = false := by decide

theorem witness_StepRunsTheIssuedCommand :
    nextAction (State.reset.withFetchWord 32 0x00000002) =
      some (writeAction (State.reset.withFetchWord 32 0x00000002).platform .cmd 0x00000002) ∧
    decode 0x00000002 = .command .compute ∧ Instr.compute.wellFormed = true := by decide

theorem witness_CommandWhileBusyIsIgnored_busy : reflecting.busy = true := by decide

theorem witness_CommandWhileBusyIsIgnored_reset :
    nextIs (step { State.reset with ovr := true, schedule := [.reset] }) (fun t => !t.ovr) = true := by decide

theorem witness_CommandWhileBusyIsIgnored_status :
    nextIs (step { State.reset with ovr := true, program := [writeAction platformAtReset .status 0x00000100] })
      (fun t => !t.ovr) = true := by decide

theorem witness_FirstErrorIsReported_illegal : State.reset.busy = false ∧ firstError 0x00000000 State.reset = some 1 := by decide

theorem witness_FirstErrorIsReported_arg :
    firstError 0x00002103 State.reset = some 2 ∧ firstError 0x00000002 { State.reset with width := 3 } = some 2 := by decide

theorem witness_FirstErrorIsReported_table : firstError 0x00000002 State.reset = some 3 := by decide

theorem witness_FirstErrorIsReported_range :
    firstError 0x00000002 { ready16 with daddr := 0xFFFFFFFF, dlen := 2 } = some 4 ∧
    firstError 0x00000002 { ready16 with daddr := 0xFFFFFFFF, dlen := 1 } = none ∧
    firstError 0x00000002 { ready16 with daddr := 0xFFFFFFFF, dlen := 0 } = none := by decide

theorem witness_FirstErrorIsReported_none : State.reset.busy = false ∧ firstError 0x00002003 State.reset = none := by decide

theorem witness_FirstErrorIsReported_bus :
    refusedComputing.busy = true ∧
    refusedComputing.latch = some (.compute .w8 false false 0x000000FF 0 5 1) ∧
    ¬ bufferAdmitted refusedComputing.platform (5 : Word).toNat (1 : Word).toNat :=
  ⟨rfl, rfl, fun h => absurd (h 0 (by decide)) (by decide)⟩

theorem witness_CommandFrame : nextIs (exec .gentab idle16) (fun t => t.busy) = true ∧
    nextIs (exec .compute idle16) (fun t => !t.busy) = true := by decide

theorem witness_ReflectMirrorsTheLowBits :
    (32 ≤ 32 ∧ 31 < 32) ∧ (reflectBits 0x00000001 32).getLsbD 31 = true ∧ (reflectBits 0xFFFFFFFF 4).getLsbD 4 = false := by decide

theorem witness_ReflectCornerCases : 32 ≤ 32 ∧ (0xFFFFFFFF : Word).toNat < 2 ^ 32 ∧ (0x0000000F : Word).toNat < 2 ^ 4 := by decide

theorem witness_ReflectCompletes : idle16.busy = false ∧ 0 ≤ 32 ∧ 32 ≤ 32 := by decide

theorem witness_ReflectCountOutOfRange : idle16.busy = false ∧ 33 ≤ 33 ∧ 63 ≤ 63 := by decide

theorem witness_ReflectScriptReadsItsResult :
    scriptRefl platformAtReset 0x000000F2 8 =
      some [writeAction platformAtReset .opa 0x000000F2, writeAction platformAtReset .cmd 0x00000803, .wait] ∧
    8 ≤ 32 ∧ State.reset.busy = false ∧ Move.reset ∉ ([.host, .engine, .host] : List Move) := by decide

theorem witness_TableProperties : truncW .w8 0x000000FF = 0x000000FF ∧ truncW .w16 0xABCD1021 = truncW .w16 0x00001021 := by decide

theorem witness_GentabCompletes : idle16.busy = false ∧ idle16.width = widthCode .w16 := by decide

theorem witness_ArgumentErrors :
    State.reset.busy = false ∧ ({ State.reset with width := 3 } : State).width = 3 ∧ State.reset.err ≠ 2 ∧
    nextIs (issue (encode (.reflect 63)) State.reset) (fun t => t.err == 2) = true := by decide

theorem witness_OnlyGentabWritesTheTable : ∃ t, step generating = .next t ∧ t.table ≠ generating.table :=
  ⟨_, rfl, fun h => absurd (congrArg (fun v => v.get (1 : Byte).toFin) h) (by decide)⟩

theorem witness_TableTagRule :
    (generating.busy = true ∧ generating.latch = some (.gentab .w16 0x00001021)) ∧
    ∃ t, step (ready16.withFetchWord 32 0x00000001) = .next t ∧ t.tvalid ≠ (ready16.withFetchWord 32 0x00000001).tvalid :=
  ⟨by decide, _, rfl, by decide⟩

theorem witness_TableTagRule_rejected :
    nextIs (step ({ ready16 with width := 3 }.withFetchWord 32 0x00000001))
      (fun t => t.tvalid == ready16.tvalid && t.twidth == ready16.twidth && t.err == 2) = true := by decide

theorem witness_ComputeCompletes :
    ready16.busy = false ∧ ready16.width = widthCode .w16 ∧ ready16.tvalid = true ∧ ready16.twidth = ready16.width ∧
    ready16.daddr.toNat + ready16.dlen.toNat ≤ 4294967296 := by decide

theorem witness_ComputeCompletes_admitted : bufferAdmitted ready16.platform ready16.daddr.toNat ready16.dlen.toNat :=
  fun i hi => (by decide : ∀ k : Fin 4, memAdmit ready16.platform (ready16.daddr.toNat + k) = true) ⟨i, hi⟩

theorem witness_ComputeOfEmptyBuffer_runs :
    ({ zeroComputing with latch := some (.compute .w8 false true 0x000000FF 0x000000FF 5 0) } : State).busy = true ∧
    zeroComputing.raced = false := by decide

theorem witness_ComputeOfEmptyBuffer_rejected :
    State.reset.busy = false ∧ State.reset.width ≠ 3 ∧ State.reset.dlen = 0 ∧ State.reset.tvalid = false := by decide

theorem witness_ComputeBusError :
    refusedComputing.busy = true ∧ refusedComputing.raced = false ∧
    refusedComputing.latch = some (.compute .w8 false false 0x000000FF 0 5 1) ∧
    0 < (1 : Word).toNat ∧ memAdmit refusedComputing.platform ((5 : Word).toNat + 0) = false := by decide

theorem witness_ComputeDependsOnlyOnItsInputs :
    zeroComputing.busy = true ∧ zeroComputing.raced = false ∧
    truncW .w8 0x000000FF = truncW .w8 0xABCDEFFF ∧ truncW .w8 0 = truncW .w8 0x00000100 ∧
    bufferBytes zeroComputing.mem 5 1 = bufferBytes zeroComputing.mem 6 1 ∧
    memAdmit zeroComputing.platform 5 = true ∧ memAdmit zeroComputing.platform 6 = true ∧
    ∀ k, (zeroComputing.table.get k).isSome = true :=
  ⟨rfl, rfl, by decide, by decide, by decide, by decide, by decide, by decide⟩

theorem witness_GentabThenComputeDividesTheBuffer :
    ready16.busy = false ∧ ready16.width = widthCode .w16 ∧
    (ready16.dlen = 0 ∨ ready16.daddr.toNat + ready16.dlen.toNat ≤ 4294967296) := by decide

theorem witness_ZeroTableForgetsInit :
    zeroComputing.busy = true ∧ zeroComputing.raced = false ∧
    zeroComputing.latch = some (.compute .w8 false false 0x000000FF 0 5 1) ∧
    zeroComputing.table = Vector.replicate 256 (some 0) ∧ 0 < (1 : Word).toNat :=
  ⟨rfl, rfl, rfl, rfl, by decide⟩

/-- A sound state with a COMPUTE running. -/
theorem zeroComputing_inv : zeroComputing.Inv where
  latch_iff_busy := rfl
  latch_sound := fun l hl => by
    simp only [zeroComputing, Option.some.injEq] at hl
    subst hl
    decide
  err_named := by decide
  err_clear_while_busy := fun _ => rfl
  table_complete := fun _ => ⟨.w8, rfl, fun i => ⟨0, by simp [zeroComputing, Vector.get_eq_getElem], rfl⟩⟩
  memory_canonical := rfl
  platform_ok := by decide
  race_recorded := fun h => absurd h (by decide)

theorem witness_TableIsReadableDuringCompute :
    zeroComputing.Inv ∧ zeroComputing.latch = some (.compute .w8 false false 0x000000FF 0 5 1) ∧
    ∃ t, step zeroComputing = .next t ∧ resetMoves zeroComputing = false :=
  ⟨zeroComputing_inv, rfl, _, rfl, rfl⟩

theorem witness_EngineFrame :
    reflecting.latch = some (.reflect 0x000000F2 8) ∧ generating.latch = some (.gentab .w16 0x00001021) ∧
    zeroComputing.latch = some (.compute .w8 false false 0x000000FF 0 5 1) := ⟨rfl, rfl, rfl⟩

theorem witness_UnmappedAndReservedReadZero :
    slotOf 0x02C = .unmapped ∧ slotOf 0x3FC = .unmapped ∧ slotOf 0x028 = .reg .acc ∧ slotOf 0x400 = .table 0 := by decide

theorem witness_OnlyTheNamedReadsAreFree :
    reflecting.busy = true ∧ State.reset.tvalid = false ∧ ready16.busy = false ∧ ready16.tvalid = true ∧
    ready16.table.get (1 : Byte).toFin = some 0x00001021 := by decide

theorem witness_BadHostAccessIsRecorded : Access.half ≠ Access.word ∧ (0x026 : BitVec 11).toNat % 4 ≠ 0 := by decide

theorem witness_OperandWritesWhileBusyAreSafe :
    reflecting.busy = true ∧ Reg.opa ∈ [Reg.cfg, .poly, .init, .xorout, .daddr, .dlen, .opa] := by decide

theorem witness_OperandRegistersChangeOnlyByWrites :
    nextIs (step { State.reset with program := [writeAction platformAtReset .poly 7] }) (fun t => t.poly == 7) = true ∧
    resetMoves { State.reset with program := [writeAction platformAtReset .poly 7] } = false := by decide

theorem witness_OperandRegistersReadBack :
    nextIs (hostWrite (windowAddr platformAtReset 0x014) .word 0xFFFFFFFF00000007 State.reset)
      (fun t => (hostRead (windowAddr platformAtReset 0x014) .word t).reads ==
        [⟨windowAddr platformAtReset 0x014, .word, some 0x00000007⟩]) = true := by decide

theorem witness_SetupScriptProgramsTheVariant :
    ({ State.reset with schedule := [.host, .host, .host, .host, .reset] } : State).schedule =
      List.replicate 4 .host ++ [.reset] := by decide

theorem witness_MemoryWriteStoresItsBytes :
    memWf ready16.mem = true ∧ windowOffset ready16.platform 0xFFFFFFFF = none ∧
    (0xFFFFFFFF : Word).toNat + accessBytes .byte ≤ 4294967296 := by decide

theorem witness_OnlyHostWritesChangeMemory :
    nextIs (step { State.reset with program := [.write 0xFFFFFFFF .byte 9] })
      (fun t => memByte t.mem 0xFFFFFFFF != memByte State.reset.mem 0xFFFFFFFF) = true := by decide

theorem witness_OnlyWritesPastTheTopStop :
    nextMemWrite { State.reset with program := [.write 0xFFFFFFFF .half 9] } = some (0xFFFFFFFF, .half, 9) ∧
    4294967296 < (0xFFFFFFFF : Word).toNat + accessBytes .half := by decide

theorem witness_BufferRaceLeavesResultsFree_race :
    zeroComputing.busy = true ∧ zeroComputing.latch = some (.compute .w8 false false 0x000000FF 0 5 1) ∧
    windowOffset zeroComputing.platform 4 = none ∧ (4 : Word).toNat + accessBytes .half ≤ 4294967296 ∧
    ∃ b, (4 : Word).toNat ≤ b ∧ b < (4 : Word).toNat + accessBytes .half ∧ (5 : Word).toNat ≤ b ∧ b < (5 : Word).toNat + (1 : Word).toNat :=
  ⟨rfl, rfl, by decide, by decide, 5, by decide⟩

theorem witness_BufferRaceLeavesResultsFree_beside :
    races 6 1 zeroComputing = false ∧ races 4 1 zeroComputing = false ∧ races 4 2 zeroComputing = true ∧
    races 4 4 { zeroComputing with latch := some (.compute .w8 false false 0x000000FF 0 5 0) } = false := by decide

theorem witness_BusyRule :
    nextIs (step (State.reset.withFetchWord 32 0x00000003)) (fun t => t.busy) = true ∧
    nextIs (step reflecting) (fun t => !t.busy) = true ∧ firstError 0x00002003 State.reset = none := by decide

theorem witness_ErrChangesOnlyByItsRule : nextIs (step refusedComputing) (fun t => t.err != refusedComputing.err) = true ∧
    nextIs (step { refusedComputing with raced := true }) (fun t => t.err == 5) = true ∧
    nextIs (step { zeroComputing with raced := true }) (fun t => t.err == zeroComputing.err) = true := by decide

theorem witness_ResultsChangeOnlyOnCompletion :
    nextIs (step computing16) (fun t => t.result != computing16.result && t.acc != computing16.acc) = true ∧
    resetMoves computing16 = false := by decide

theorem witness_FaultedRunsAreNeverFinal :
    ({ State.reset with faults := [.bufferRace 5] } : State).faults ≠ [] ∧
    nextIs (runSteps 2 { State.reset with faults := [.bufferRace 5] }) (fun t => !t.final) = true := by decide

theorem witness_WaitEnds :
    ({ reflecting with program := [.wait], schedule := [.host, .host, .reset] } : State).busy = true ∧
    reflecting.latch.isSome = true ∧ State.reset.busy = false ∧
    ([.host, .host, .reset] : List Move) = List.replicate 2 .host ++ [.reset] := by decide

theorem witness_ResetAbandonsTheCommand : nextMove { computing16 with schedule := [.reset] } = .reset := by decide

theorem witness_MnemonicsAssembleToOneWrite : Instr.compute.wellFormed = true ∧ 63 ≤ 63 ∧ 63 < 64 := by decide

theorem witness_EveryStepKeepsTheStateSound : zeroComputing.Inv ∧ ∃ t, step zeroComputing = .next t :=
  ⟨zeroComputing_inv, _, rfl⟩

end Sys2Proof.Tests
end

section
/-! PROOFS. What one step of the run can do, said once: the inversion of `step`, the frames of its parts, and the invariant. -/

namespace Sys2Proof.Machine

variable {s t : State}

/-! ### The inversion of a step -/

/-- What a step that answers a next state has done. -/
inductive StepEffect (s : State) : State → Prop where
  /-- The Engine's turn. -/
  | engine (hm : nextMove s = .engine) : StepEffect s (engineTurn (takeMove s))
  /-- The reset input. -/
  | reset (hm : nextMove s = .reset) : StepEffect s (resetBlock (takeMove s))
  /-- A read, a poll, an ignored write or no action at all: only the records of the run change. -/
  | records (fs : List ModelFault) (rs : List HostRead) (d : Nat) (p : List HostAction) (m : List Move) :
      StepEffect s { s with faults := s.faults ++ fs, reads := rs, draws := d, program := p, schedule := m }
  /-- A host write of a register. -/
  | regWrite (r : Reg) (v : Word) (t : State) (hw : nextRegWrite r s = some v)
      (h : writeReg r v (takeAction s) = .next t) : StepEffect s t
  /-- A host write of external memory that touches no latched buffer. -/
  | stored (addr : Word) (size : Access) (data : BitVec 64) (hw : nextMemWrite s = some (addr, size, data))
      (hr : races addr (accessBytes size) (takeAction s) = false)
      (hb : addr.toNat + accessBytes size ≤ Config.addressSpace) :
      StepEffect s (storeBytes addr size data (takeAction s))
  /-- A host write of external memory into the latched buffer. -/
  | raced (addr : Word) (size : Access) (data : BitVec 64) (hw : nextMemWrite s = some (addr, size, data))
      (hr : races addr (accessBytes size) (takeAction s) = true)
      (hb : addr.toNat + accessBytes size ≤ Config.addressSpace) :
      StepEffect s (storeBytes addr size data (recordRace addr (takeAction s)))

/-- A step that only takes its move and its action off, as an ignored write does, changes the records of the run alone. -/
theorem StepEffect.of_takeAction (s : State) : StepEffect s (takeAction s) := by
  simpa [takeAction, takeMove] using StepEffect.records [] s.reads s.draws s.program.tail s.schedule.tail

/-- The next step writes register `r` where its word write is addressed to `r`'s offset. -/
theorem nextRegWrite_of_action {addr : Word} {data : BitVec 64} {r : Reg}
    (ha : nextAction s = some (.write addr .word data)) (ho : windowOffset s.platform addr = some (regOffset r)) :
    nextRegWrite r s = some (data.setWidth 32) := by
  simp [nextRegWrite, ha, ho]

/-- The next step writes memory where its write is addressed outside the window. -/
theorem nextMemWrite_of_action {addr : Word} {size : Access} {data : BitVec 64}
    (ha : nextAction s = some (.write addr size data)) (ho : windowOffset s.platform addr = none) :
    nextMemWrite s = some (addr, size, data) := by
  simp [nextMemWrite, ha, ho]

/-- A host write as a step: of a register, of memory, or of the records alone. -/
theorem stepEffect_of_hostWrite {addr : Word} {size : Access} {data : BitVec 64}
    (ha : nextAction s = some (.write addr size data)) (h : hostWrite addr size data (takeAction s) = .next t) :
    StepEffect s t := by
  cases hostWrite_effect h with
  | window off data t ho hx =>
    cases hslot : slotOf off with
    | unmapped => rw [hslot] at hx; cases hx; exact .of_takeAction s
    | table i => rw [hslot] at hx; cases hx; exact .of_takeAction s
    | reg r =>
      rw [hslot] at hx
      rw [slotOf_eq_reg hslot] at ho
      exact .regWrite r _ t (nextRegWrite_of_action ha ho) hx
  | badAccess off size data ho => exact .records [.badHostAccess off size] _ _ _ _
  | raced size data ho hr hb => exact .raced addr size data (nextMemWrite_of_action ha ho) hr hb
  | stored size data ho hr hb => exact .stored addr size data (nextMemWrite_of_action ha ho) hr hb

/-- Every step that answers a next state has one of the effects. -/
theorem step_effect (h : step s = .next t) : StepEffect s t := by
  obtain ⟨hm, rfl⟩ | ⟨hm, rfl⟩ | ⟨-, hp, rfl⟩ | ⟨-, rfl⟩ | ⟨addr, size, -, rfl⟩ | ⟨addr, size, data, ha, hw⟩ := step_cases h
  · exact .engine hm
  · exact .reset hm
  · simpa [takeAction, takeMove, hp] using StepEffect.of_takeAction s
  · obtain ⟨r, fs, d, he⟩ := hostWait_eq (takeAction s)
    rw [he]; exact .records (s := s) fs _ _ _ _
  · obtain ⟨r, fs, d, he⟩ := hostRead_eq addr size (takeAction s)
    rw [he]; exact .records (s := s) fs _ _ _ _
  · exact stepEffect_of_hostWrite ha hw

/-! ### What a register write and a command's issue can do -/

/-- A host write of a register other than CMD reaches the operand registers and OVR alone (10_state.md R21). -/
theorem writeReg_frame {r : Reg} {v : Word} (hr : r ≠ .cmd) (h : writeReg r v s = .next t) :
    ∃ wd ri ro p i x a n o ov, t = { s with
      width := wd, refin := ri, refout := ro, poly := p, init := i, xorout := x, daddr := a, dlen := n, opa := o, ovr := ov } := by
  cases r with
  | cmd => exact absurd rfl hr
  | _ => cases h; exact ⟨_, _, _, _, _, _, _, _, _, _, rfl⟩

/-- The checks that an accepted command has passed and the state that it leaves (60_exceptions.md R171). -/
inductive Accepted (s : State) : Instr → State → Prop where
  | gentab (w : Width) (hw : widthOfCode s.width = some w) :
      Accepted s .gentab (accept (gentabLatch w s) { s with tvalid := false })
  | compute (w : Width) (hw : widthOfCode s.width = some w) (ht : tableMatches w s = true)
      (hr : bufferInRange s.daddr s.dlen = true) : Accepted s .compute (accept (computeLatch w s) s)
  | reflect (n : Nat) (hn : n ≤ 32) : Accepted s (.reflect n) (accept (reflectLatch n s) s)

/-- What a word written to CMD can do (60_exceptions.md R171, R172 to R178). -/
inductive IssueEffect (s : State) (v : Word) : State → Prop where
  /-- Ignored while BUSY = 1. -/
  | ignored (hb : s.busy = true) : IssueEffect s v (overrun s)
  /-- Rejected with one of the codes 1 to 4. -/
  | rejected (hb : s.busy = false) (code : BitVec 4) (hc : code.toNat ≤ 4) : IssueEffect s v (raiseErr code s)
  /-- Accepted into the latch. -/
  | accepted (hb : s.busy = false) (i : Instr) (t : State) (hd : decode v = .command i) (ha : Accepted s i t) :
      IssueEffect s v t

/-- A word written to CMD has one of the effects. -/
theorem issue_effect {v : Word} (h : issue v s = .next t) : IssueEffect s v t := by
  obtain ⟨hb, rfl⟩ | ⟨hb, -, rfl⟩ | ⟨hb, i, hd, he⟩ := issue_cases h
  · exact .ignored hb
  · exact .rejected hb errIllegal (by decide)
  · obtain ⟨hb', -⟩ | ⟨-, code, hc, rfl⟩ | ⟨-, rfl, w, hw, rfl⟩ | ⟨-, rfl, w, hw, ht, hr, rfl⟩ | ⟨-, n, rfl, hn, rfl⟩ :=
      exec_cases he
    · rw [hb] at hb'; cases hb'
    · refine .rejected hb code ?_
      obtain rfl | rfl | rfl := hc <;> decide
    · exact .accepted hb _ _ hd (.gentab w hw)
    · exact .accepted hb _ _ hd (.compute w hw ht hr)
    · exact .accepted hb _ _ hd (.reflect n hn)

/-! ### The Engine's turn, by the command in the latch -/

/-- The Engine completes a latched GENTAB (41_table_generator.md R124). -/
theorem engineTurn_gentab {w : Width} {p : Word} (hb : s.busy = true) (hl : s.latch = some (.gentab w p)) :
    engineTurn s = performGentab w p s := by
  simp only [engineTurn, hb, hl, if_true, perform]

/-- The Engine completes a latched COMPUTE (42_crc_compute.md R148). -/
theorem engineTurn_compute {w : Width} {ri ro : Bool} {i x a n : Word} (hb : s.busy = true)
    (hl : s.latch = some (.compute w ri ro i x a n)) : engineTurn s = performCompute w ri ro i x a n s := by
  simp only [engineTurn, hb, hl, if_true, perform]

/-- The Engine completes a latched REFLECT (40_reflect.md R102). -/
theorem engineTurn_reflect {a : Word} {n : BitVec 6} (hb : s.busy = true) (hl : s.latch = some (.reflect a n)) :
    engineTurn s = performReflect a n s := by
  simp only [engineTurn, hb, hl, if_true, perform]

/-- What the Engine's turn has done: nothing, or the completion of the latched command. -/
inductive EngineEffect (s : State) : State → Prop where
  | idle (h : s.busy = false ∨ s.latch = none) : EngineEffect s s
  | gentab (w : Width) (p : Word) (hb : s.busy = true) (hl : s.latch = some (.gentab w p)) :
      EngineEffect s (performGentab w p s)
  | compute (w : Width) (ri ro : Bool) (i x a n : Word) (hb : s.busy = true)
      (hl : s.latch = some (.compute w ri ro i x a n)) : EngineEffect s (performCompute w ri ro i x a n s)
  | reflect (a : Word) (n : BitVec 6) (hb : s.busy = true) (hl : s.latch = some (.reflect a n)) :
      EngineEffect s (performReflect a n s)

/-- The Engine's turn has one of the effects. -/
theorem engineTurn_effect (s : State) : EngineEffect s (engineTurn s) := by
  obtain ⟨he, h⟩ | ⟨hb, l, hl, -⟩ := engineTurn_cases s
  · rw [he]; exact .idle h
  · cases l with
    | gentab w p => rw [engineTurn_gentab hb hl]; exact .gentab w p hb hl
    | compute w ri ro i x a n => rw [engineTurn_compute hb hl]; exact .compute w ri ro i x a n hb hl
    | reflect a n => rw [engineTurn_reflect hb hl]; exact .reflect a n hb hl

/-- The byte loop is refused exactly where some byte of the buffer may not be read (42_crc_compute.md R148, R150). -/
theorem crcLoop_eq_none {p : Platform} {m : List Host.Cell} {w : Width} {ri : Bool} {f : Byte → Word} {n a : Nat} {c : Word} :
    crcLoop p m w ri f n a c = none ↔ ¬ bufferAdmitted p a n := by
  induction n generalizing a c with
  | zero => simp [crcLoop, bufferAdmitted]
  | succ n ih =>
    have hsplit : bufferAdmitted p a (n + 1) ↔ memAdmit p a = true ∧ bufferAdmitted p (a + 1) n := by
      simp only [bufferAdmitted, Nat.forall_lt_succ_left, Nat.add_zero, Nat.add_assoc, Nat.add_comm 1]
    cases hm : memAdmit p a <;> simp [crcLoop, memRead, hm, hsplit, ih]

/-- A latched COMPUTE meets a refused read exactly where its buffer is not admitted (20_memory.md R63, 42_crc_compute.md R150). -/
theorem computeAcc_eq_none {w : Width} {ri : Bool} {i a n : Word} :
    computeAcc w ri i a n s = none ↔ ¬ bufferAdmitted s.platform a.toNat n.toNat := by
  simp only [computeAcc, crcLoop_eq_none]

/-- The Engine step of COMPUTE changes ERR, ACC, RESULT and the draw count, and empties the latch. -/
theorem performCompute_frame (w : Width) (ri ro : Bool) (i x a n : Word) (s : State) :
    ∃ e acc res d, performCompute w ri ro i x a n s =
      { s with err := e, acc := acc, result := res, draws := d, latch := none, busy := false, raced := false } :=
  ⟨_, _, _, _, performCompute_eq w ri ro i x a n s _ rfl⟩

/-- The Engine step of COMPUTE sets ERR to BUS with a refused read and leaves it as it was otherwise (42_crc_compute.md R150). -/
theorem performCompute_err (w : Width) (ri ro : Bool) (i x a n : Word) (s : State) :
    (¬ bufferAdmitted s.platform a.toNat n.toNat ∧ (performCompute w ri ro i x a n s).err = errBus) ∨
    (performCompute w ri ro i x a n s).err = s.err := by
  rw [performCompute_eq w ri ro i x a n s _ rfl]
  cases hc : computeAcc w ri i a n s with
  | none => exact .inl ⟨computeAcc_eq_none.mp hc, rfl⟩
  | some acc => exact .inr rfl

/-! ### Generated tables -/

/-- One iteration of the division by a W-bit polynomial leaves a W-bit remainder. -/
theorem truncW_divideStep {w : Width} {p : Word} (hp : truncW w p = p) (r : Word) :
    truncW w (divideStep w p r) = divideStep w p r := by
  unfold divideStep
  split <;> simp only [truncW_xor, truncW_truncW, hp]

/-- The division of a W-bit value by a W-bit polynomial leaves a W-bit remainder. -/
theorem truncW_divideLoop {w : Width} {p r : Word} (hp : truncW w p = p) (hr : truncW w r = r) (k : Nat) :
    truncW w (divideLoop w p k r) = divideLoop w p k r := by
  induction k generalizing r with
  | zero => exact hr
  | succ k ih => exact ih (truncW_divideStep hp r)

/-- An entry for a W-bit polynomial has W bits (10_state.md R39). -/
theorem truncW_genEntry {w : Width} {p : Word} (hp : truncW w p = p) (d : Byte) : truncW w (genEntry w p d) = genEntry w p d :=
  truncW_divideLoop hp (truncW_truncW w _) 8

/-- Entry d of a generated table (41_table_generator.md R122). -/
@[simp] theorem genTable_get (w : Width) (poly : Word) (d : Byte) :
    (genTable w poly).get d.toFin = some (genEntry w (truncW w poly) d) := by
  simp [genTable, Vector.get_eq_getElem]

/-- A generated table is complete and of its width (10_state.md R39). -/
theorem tableSound_genTable (w : Width) (poly : Word) : tableSound w (genTable w poly) :=
  fun d => ⟨_, genTable_get w poly d, truncW_genEntry (truncW_truncW w poly) d⟩

/-! ### What the block keeps of a command: BUSY, the latch, the table, the outcome -/

/-- BUSY, the latch, TABLE with its tag, ERR, RESULT and ACC are the same in both states (10_state.md R31 to R40). -/
structure SameCommand (s t : State) : Prop where
  busy : t.busy = s.busy
  latch : t.latch = s.latch
  tvalid : t.tvalid = s.tvalid
  twidth : t.twidth = s.twidth
  err : t.err = s.err
  result : t.result = s.result
  acc : t.acc = s.acc
  table : t.table = s.table

/-- Two changes that leave a command alone leave it alone together. -/
theorem SameCommand.trans {u : State} (h : SameCommand s t) (h' : SameCommand t u) : SameCommand s u where
  busy := h'.busy.trans h.busy
  latch := h'.latch.trans h.latch
  tvalid := h'.tvalid.trans h.tvalid
  twidth := h'.twidth.trans h.twidth
  err := h'.err.trans h.err
  result := h'.result.trans h.result
  acc := h'.acc.trans h.acc
  table := h'.table.trans h.table

/-- Taking the move and the action off changes nothing of a command. -/
theorem takeAction_sameCommand (s : State) : SameCommand s (takeAction s) := by constructor <;> rfl

/-- Recording a race changes nothing of a command. -/
theorem recordRace_sameCommand (addr : Word) (s : State) : SameCommand s (recordRace addr s) := by constructor <;> rfl

/-- A host write of memory changes nothing of a command. -/
theorem storeBytes_sameCommand (addr : Word) (size : Access) (data : BitVec 64) (s : State) :
    SameCommand s (storeBytes addr size data s) := by constructor <;> rfl

/-- A host write of a register other than CMD changes nothing of a command. -/
theorem writeReg_sameCommand {r : Reg} {v : Word} (hr : r ≠ .cmd) (h : writeReg r v s = .next t) : SameCommand s t := by
  obtain ⟨_, _, _, _, _, _, _, _, _, _, rfl⟩ := writeReg_frame hr h
  constructor <;> rfl

/-- What can change anything of a command is the Engine, reset, or a word written to CMD (10_state.md R30 to R41). -/
theorem step_command (h : step s = .next t) :
    (nextMove s = .engine ∧ EngineEffect (takeMove s) t) ∨
    (nextMove s = .reset ∧ t = resetBlock (takeMove s)) ∨
    (∃ v, nextRegWrite .cmd s = some v ∧ IssueEffect (takeAction s) v t) ∨
    SameCommand s t := by
  cases step_effect h with
  | engine hm => exact .inl ⟨hm, engineTurn_effect _⟩
  | reset hm => exact .inr (.inl ⟨hm, rfl⟩)
  | records => exact .inr (.inr (.inr (by constructor <;> rfl)))
  | stored => exact .inr (.inr (.inr ((takeAction_sameCommand s).trans (storeBytes_sameCommand _ _ _ _))))
  | raced =>
    exact .inr (.inr (.inr ((takeAction_sameCommand s).trans
      ((recordRace_sameCommand _ _).trans (storeBytes_sameCommand _ _ _ _)))))
  | regWrite r v _ hw hx =>
    by_cases hr : r = .cmd
    · subst hr; exact .inr (.inr (.inl ⟨v, hw, issue_effect hx⟩))
    · exact .inr (.inr (.inr ((takeAction_sameCommand s).trans (writeReg_sameCommand hr hx))))

/-! ### The invariant -/

/-- What the invariant says of a latched command rests on the table tag alone. -/
theorem latchSound_congr {l : Latch} (hv : t.tvalid = s.tvalid) (hw : t.twidth = s.twidth) : latchSound t l = latchSound s l := by
  cases l <;> simp only [latchSound, tableMatches, hv, hw]

/-- A change of state that keeps the command, the platform and the race mark, and loses no model fault, keeps the invariant
where memory stays canonical. -/
theorem State.Inv.congr (hi : s.Inv) (hc : SameCommand s t) (hm : memWf t.mem = true) (hp : t.platform = s.platform)
    (hr : t.raced = s.raced) (hf : s.faults ⊆ t.faults) : t.Inv where
  latch_iff_busy := by rw [hc.latch, hc.busy, hi.latch_iff_busy]
  latch_sound l hl := by
    rw [latchSound_congr hc.tvalid hc.twidth]
    exact hi.latch_sound l (hc.latch ▸ hl)
  err_named := hc.err ▸ hi.err_named
  err_clear_while_busy hb := by rw [hc.err, hi.err_clear_while_busy (hc.busy ▸ hb)]
  table_complete hv := by
    rw [hc.twidth, hc.table]
    exact hi.table_complete (hc.tvalid ▸ hv)
  memory_canonical := hm
  platform_ok := hp ▸ hi.platform_ok
  race_recorded hx := by
    obtain ⟨⟨addr, ha⟩, hl⟩ := hi.race_recorded (hr ▸ hx)
    exact ⟨⟨addr, hf ha⟩, hc.latch ▸ hl⟩

/-- Taking a move off the schedule keeps the invariant. -/
theorem State.Inv.takeMove (hi : s.Inv) : (takeMove s).Inv :=
  hi.congr (by constructor <;> rfl) hi.memory_canonical rfl rfl (List.Subset.refl _)

/-- Taking an action off the program keeps the invariant. -/
theorem State.Inv.takeAction (hi : s.Inv) : (takeAction s).Inv :=
  hi.congr (takeAction_sameCommand s) hi.memory_canonical rfl rfl (List.Subset.refl _)

/-- A host write of memory that stays inside the address space keeps the invariant. -/
theorem State.Inv.storeBytes (hi : s.Inv) {addr : Word} {size : Access} (data : BitVec 64)
    (hb : addr.toNat + accessBytes size ≤ Config.addressSpace) : (storeBytes addr size data s).Inv :=
  hi.congr (storeBytes_sameCommand ..) (memWf_memSetList hi.memory_canonical _ (by simpa using hb)) rfl rfl
    (List.Subset.refl _)

/-- A write that races has met a latched COMPUTE (20_memory.md R77). -/
theorem latch_of_races {addr : Word} {n : Nat} (h : races addr n s = true) :
    ∃ w ri ro i x a len, s.latch = some (.compute w ri ro i x a len) := by
  simp only [races, Bool.and_eq_true] at h
  obtain ⟨-, h⟩ := h
  split at h
  · exact ⟨_, _, _, _, _, _, _, ‹_›⟩
  · cases h

/-- Recording a race keeps the invariant. -/
theorem State.Inv.recordRace (hi : s.Inv) {addr : Word} {n : Nat} (h : races addr n s = true) : (recordRace addr s).Inv :=
  { hi with race_recorded := fun _ => ⟨⟨addr, by simp⟩, latch_of_races h⟩ }

/-- A host write of a register other than CMD keeps the invariant. -/
theorem State.Inv.writeReg (hi : s.Inv) {r : Reg} {v : Word} (hr : r ≠ .cmd) (h : writeReg r v s = .next t) : t.Inv := by
  have hc := writeReg_sameCommand hr h
  obtain ⟨_, _, _, _, _, _, _, _, _, _, rfl⟩ := writeReg_frame hr h
  exact hi.congr hc hi.memory_canonical rfl rfl (List.Subset.refl _)

/-- A sound idle state has an empty latch. -/
theorem State.Inv.latch_eq_none (hi : s.Inv) (hb : s.busy = false) : s.latch = none := by
  simpa [hb] using hi.latch_iff_busy

/-- A sound busy state has a latched command. -/
theorem State.Inv.latch_isSome (hi : s.Inv) (hb : s.busy = true) : s.latch.isSome = true := by
  rw [hi.latch_iff_busy, hb]

/-- A code of 60_exceptions.md R172 to R175 in ERR of an idle state keeps the invariant. -/
theorem State.Inv.raiseErr (hi : s.Inv) (hb : s.busy = false) {code : BitVec 4} (hc : code.toNat ≤ 5) : (raiseErr code s).Inv :=
  { hi with
    err_named := hc
    err_clear_while_busy := fun h => absurd (hb.symm.trans h) Bool.false_ne_true }

/-- Accepting a command whose operands passed their checks keeps the invariant. -/
theorem State.Inv.accept (hi : s.Inv) {l : Latch} (hl : latchSound s l = true) : (accept l s).Inv where
  latch_iff_busy := rfl
  latch_sound l' h := by
    cases h
    exact (latchSound_congr (s := s) rfl rfl).trans hl
  err_named := Nat.zero_le 5
  err_clear_while_busy _ := rfl
  table_complete := hi.table_complete
  memory_canonical := hi.memory_canonical
  platform_ok := hi.platform_ok
  race_recorded h := absurd h Bool.false_ne_true

/-- Clearing TVALID of an idle state keeps the invariant. -/
theorem State.Inv.clear_tvalid (hi : s.Inv) (hb : s.busy = false) : State.Inv { s with tvalid := false } :=
  { hi with
    latch_sound := fun l hl => absurd ((hi.latch_eq_none hb).symm.trans hl) (Option.some_ne_none l).symm
    table_complete := fun h => absurd h Bool.false_ne_true }

/-- An accepted command keeps the invariant: its operands passed their checks. -/
theorem State.Inv.accepted (hi : s.Inv) (hb : s.busy = false) {i : Instr} (h : Accepted s i t) : t.Inv := by
  cases h with
  | gentab w hw => exact (hi.clear_tvalid hb).accept rfl
  | compute w hw ht hr => exact hi.accept (by simp [latchSound, computeLatch, ht, hr])
  | reflect n hn =>
    have hsmall : n % 64 ≤ 32 := by omega
    exact hi.accept (by simp [latchSound, reflectLatch, hsmall])

/-- A word written to CMD keeps the invariant. -/
theorem State.Inv.issue (hi : s.Inv) {v : Word} (h : IssueEffect s v t) : t.Inv := by
  cases h with
  | ignored hb => exact hi.congr (by constructor <;> rfl) hi.memory_canonical rfl rfl (List.Subset.refl _)
  | rejected hb code hc => exact hi.raiseErr hb (by omega)
  | accepted hb i _ hd ha => exact hi.accepted hb ha

/-- An idle state with an empty latch, a named ERR and a complete table where TVALID = 1 is sound beside a sound state with its
memory and platform. -/
theorem State.Inv.of_idle (hi : s.Inv) (hb : t.busy = false) (hl : t.latch = none) (hr : t.raced = false) (he : t.err.toNat ≤ 5)
    (ht : t.tvalid = true → ∃ w, widthOfCode t.twidth = some w ∧ tableSound w t.table)
    (hm : t.mem = s.mem) (hp : t.platform = s.platform) : t.Inv where
  latch_iff_busy := by rw [hl, hb]; rfl
  latch_sound l h := by rw [hl] at h; cases h
  err_named := he
  err_clear_while_busy h := by rw [hb] at h; cases h
  table_complete := ht
  memory_canonical := hm ▸ hi.memory_canonical
  platform_ok := hp ▸ hi.platform_ok
  race_recorded h := by rw [hr] at h; cases h

/-- The Engine step of COMPUTE keeps the invariant. -/
theorem State.Inv.performCompute (hi : s.Inv) (w : Width) (ri ro : Bool) (i x a n : Word) :
    (performCompute w ri ro i x a n s).Inv := by
  have herr : (Machine.performCompute w ri ro i x a n s).err.toNat ≤ 5 := by
    obtain ⟨-, he⟩ | he := performCompute_err w ri ro i x a n s <;> rw [he]
    · decide
    · exact hi.err_named
  obtain ⟨e, acc, res, d, h⟩ := performCompute_frame w ri ro i x a n s
  rw [h] at herr ⊢
  exact hi.of_idle rfl rfl rfl herr hi.table_complete rfl rfl

/-- The Engine's turn keeps the invariant. -/
theorem State.Inv.engine (hi : s.Inv) (h : EngineEffect s t) : t.Inv := by
  cases h with
  | idle => exact hi
  | gentab w p =>
    exact hi.of_idle rfl rfl rfl hi.err_named (fun _ => ⟨w, widthOfCode_widthCode w, tableSound_genTable w p⟩) rfl rfl
  | compute w ri ro i x a n => exact hi.performCompute w ri ro i x a n
  | reflect a n => exact hi.of_idle rfl rfl rfl hi.err_named hi.table_complete rfl rfl

/-- Reset makes every sound state sound again: TVALID = 0 and an empty latch. -/
theorem State.Inv.resetBlock (hi : s.Inv) : (resetBlock s).Inv :=
  hi.of_idle rfl rfl rfl (Nat.zero_le 5) (fun h => absurd h Bool.false_ne_true) rfl rfl

/-- Every effect of a step keeps the invariant. -/
theorem State.Inv.stepEffect (hi : s.Inv) (h : StepEffect s t) : t.Inv := by
  cases h with
  | engine => exact hi.takeMove.engine (engineTurn_effect _)
  | reset => exact hi.takeMove.resetBlock
  | records =>
    exact hi.congr (by constructor <;> rfl) hi.memory_canonical rfl rfl (List.subset_append_left _ _)
  | regWrite r v _ _ hx =>
    by_cases hr : r = .cmd
    · subst hr; exact hi.takeAction.issue (issue_effect hx)
    · exact hi.takeAction.writeReg hr hx
  | stored addr size data _ _ hb => exact hi.takeAction.storeBytes data hb
  | raced addr size data _ hr hb => exact (hi.takeAction.recordRace hr).storeBytes data hb

/-- Settles O52: each of the six effects of a step keeps the invariant. -/
theorem everyStepKeepsTheStateSound : Obligations.EveryStepKeepsTheStateSound :=
  fun _ _ hi h => hi.stepEffect (step_effect h)

/-- Settles O53: nothing is latched, TVALID = 0, and memory is empty. -/
theorem resetStateIsSound : Obligations.ResetStateIsSound where
  latch_iff_busy := rfl
  latch_sound l h := absurd h.symm (Option.some_ne_none l)
  err_named := Nat.zero_le 5
  err_clear_while_busy h := absurd h Bool.false_ne_true
  table_complete h := absurd h Bool.false_ne_true
  memory_canonical := reset_memWf
  platform_ok := by decide
  race_recorded h := absurd h Bool.false_ne_true

/-- Settles O16: the lookup is the generator's entry, and each iteration of the division keeps W bits. -/
theorem tableEntryIsItsRemainder : Obligations.TableEntryIsItsRemainder :=
  fun w poly d => ⟨genTable_get w poly d, truncW_genEntry (truncW_truncW w poly) d⟩

end Sys2Proof.Machine
end

section
/-! PROOFS. The register window: what each offset selects, the fields of the STATUS and CFG words, and what a read returns. -/

namespace Sys2Proof.Machine

variable {s t : State}

/-! ### The fields of the STATUS word (10_state.md R31) -/

/-- The STATUS word bit by bit: BUSY, TVALID, TWIDTH, ERR and OVR from bit 0 up. -/
theorem statusWord_getLsbD (s : State) (k : Nat) : (statusWord s).getLsbD k =
    (decide (k < 32) &&
      if k < 1 then (BitVec.ofBool s.busy).getLsbD k
      else if k - 1 < 1 then (BitVec.ofBool s.tvalid).getLsbD (k - 1)
      else if k - 1 - 1 < 2 then s.twidth.getLsbD (k - 1 - 1)
      else if k - 1 - 1 - 2 < 4 then s.err.getLsbD (k - 1 - 1 - 2)
      else (BitVec.ofBool s.ovr).getLsbD (k - 1 - 1 - 2 - 4)) := by
  simp only [statusWord, BitVec.getLsbD_setWidth, BitVec.getLsbD_append]

theorem statusWord_busy (s : State) : (statusWord s).getLsbD 0 = s.busy := by
  rw [statusWord_getLsbD]; simp

theorem statusWord_tvalid (s : State) : (statusWord s).getLsbD 1 = s.tvalid := by
  rw [statusWord_getLsbD]; simp

theorem statusWord_twidth (s : State) : (statusWord s).extractLsb' 2 2 = s.twidth := by
  ext i hi
  have h1 : ¬ 2 + i < 1 := by omega
  have h2 : ¬ 2 + i - 1 < 1 := by omega
  have h3 : 2 + i - 1 - 1 = i := by omega
  have h4 : 2 + i < 32 := by omega
  rw [BitVec.getElem_extractLsb', statusWord_getLsbD, if_neg h1, if_neg h2, h3, if_pos hi, decide_eq_true h4, Bool.true_and,
    BitVec.getLsbD_eq_getElem hi]

theorem statusWord_err (s : State) : (statusWord s).extractLsb' 4 4 = s.err := by
  ext i hi
  have h1 : ¬ 4 + i < 1 := by omega
  have h2 : ¬ 4 + i - 1 < 1 := by omega
  have h3 : ¬ 4 + i - 1 - 1 < 2 := by omega
  have h4 : 4 + i - 1 - 1 - 2 = i := by omega
  have h5 : 4 + i < 32 := by omega
  rw [BitVec.getElem_extractLsb', statusWord_getLsbD, if_neg h1, if_neg h2, if_neg h3, h4, if_pos hi, decide_eq_true h5,
    Bool.true_and, BitVec.getLsbD_eq_getElem hi]

theorem statusWord_ovr (s : State) : (statusWord s).getLsbD 8 = s.ovr := by
  rw [statusWord_getLsbD]; simp

/-- The STATUS word has nine bits. -/
theorem statusWord_lt (s : State) : (statusWord s).toNat < 2 ^ 9 := by
  unfold statusWord
  rw [BitVec.toNat_setWidth_of_le (by decide)]
  exact BitVec.isLt _

/-- The CFG word has four bits. -/
theorem cfgWord_lt (s : State) : (cfgWord s).toNat < 2 ^ 4 := by
  unfold cfgWord
  rw [BitVec.toNat_setWidth_of_le (by decide)]
  exact BitVec.isLt _

/-- The bits of a word above its value are 0. -/
theorem ushiftRight_eq_zero {v : Word} {k : Nat} (h : v.toNat < 2 ^ k) : v >>> k = 0 := by
  apply BitVec.eq_of_toNat_eq
  simp [Nat.shiftRight_eq_div_pow, Nat.div_eq_of_lt h]

/-! ### What an offset selects (10_state.md R20, 20_memory.md R61) -/

/-- A register answers at its offset. -/
@[simp] theorem slotOf_regOffset (r : Reg) : slotOf (regOffset r) = .reg r := by
  cases r <;> rfl

/-- The offset of a table entry as a number. -/
theorem tableOffset_toNat (i : Byte) : (tableOffset i).toNat = 0x400 + 4 * i.toNat := by
  simp [tableOffset]
  omega

/-- A table entry answers at its offset. -/
@[simp] theorem slotOf_tableOffset (i : Byte) : slotOf (tableOffset i) = .table i := by
  simp [slotOf, tableOffset_toNat]

/-- The registers end before offset 0x02C (10_state.md R20). -/
theorem regOffset_lt (r : Reg) : (regOffset r).toNat < 0x02C := by
  cases r <;> decide

/-- The table begins at offset 0x400 (10_state.md R20). -/
theorem le_of_slotOf_eq_table {off : BitVec 11} {i : Byte} (h : slotOf off = .table i) : 0x400 ≤ off.toNat := by
  by_contra hlt
  rw [slotOf, if_neg hlt] at h
  split at h <;> cases h

/-- The offsets between the registers and the table are unmapped (10_state.md R42). -/
theorem slotOf_unmapped {off : BitVec 11} (hlo : 0x02C ≤ off.toNat) (hhi : off.toNat ≤ 0x3FC) : slotOf off = .unmapped := by
  cases h : slotOf off with
  | unmapped => rfl
  | reg r =>
    rw [slotOf_eq_reg h] at hlo
    exact absurd (regOffset_lt r) (Nat.not_lt.mpr hlo)
  | table i => exact absurd (le_of_slotOf_eq_table h) (by omega)

/-- An address of the window gives its offset. -/
@[simp] theorem windowOffset_windowAddr (p : Platform) (off : BitVec 11) : windowOffset p (windowAddr p off) = some off := by
  have hsub : p.base + off.setWidth 32 - p.base = off.setWidth 32 := by
    rw [BitVec.add_comm, BitVec.add_sub_cancel]
  simp only [windowOffset, windowAddr, hsub]
  have hlt : (off.setWidth 32).toNat < Config.windowBytes := by
    rw [BitVec.toNat_setWidth_of_le (by decide)]; exact off.isLt
  rw [if_pos hlt]
  simp

/-- A word write at an aligned address of the window is the write of what its offset selects (20_memory.md R62). -/
theorem hostWrite_window {off : BitVec 11} (h : off.toNat % 4 = 0) (data : BitVec 64) (s : State) :
    hostWrite (windowAddr s.platform off) .word data s = writeSlot (slotOf off) (data.setWidth 32) s := by
  simp [hostWrite, wordAccess, h]

/-- A word read at an aligned address of the window is the read of what its offset selects (20_memory.md R62). -/
theorem hostRead_window {off : BitVec 11} (h : off.toNat % 4 = 0) (s : State) :
    hostRead (windowAddr s.platform off) .word s =
      recordRead ⟨windowAddr s.platform off, .word, some (readSlot (slotOf off) s).1⟩ (readSlot (slotOf off) s).2 := by
  simp [hostRead, wordAccess, h]

/-- Register offsets are aligned. -/
theorem regOffset_aligned (r : Reg) : (regOffset r).toNat % 4 = 0 := by
  cases r <;> rfl

/-- Table offsets are aligned. -/
theorem tableOffset_aligned (i : Byte) : (tableOffset i).toNat % 4 = 0 := by
  rw [tableOffset_toNat]; omega

/-- Settles O31, from the decoding of each offset. -/
theorem windowSelectsEveryRegister : Obligations.WindowSelectsEveryRegister :=
  ⟨slotOf_regOffset, slotOf_tableOffset, windowOffset_windowAddr⟩

/-- Settles O33: each of these offsets selects something that ignores writes. -/
theorem readOnlyWritesAreIgnored : Obligations.ReadOnlyWritesAreIgnored := by
  refine fun s data => ⟨?_, ?_, fun i => ?_, rfl⟩
  · rw [hostWrite_window (regOffset_aligned .result), slotOf_regOffset]; rfl
  · rw [hostWrite_window (regOffset_aligned .acc), slotOf_regOffset]; rfl
  · rw [hostWrite_window (tableOffset_aligned i), slotOf_tableOffset]; rfl

/-! ### Reserved bits and the write of STATUS -/

/-- A write of CFG stores bits 3..0 alone (10_state.md R22, R42). -/
theorem writeCfg_and (v : Word) (s : State) : writeCfg v s = writeCfg (v &&& 0x0000000F) s := by
  have hwidth : (v &&& 0x0000000F).extractLsb' 0 2 = v.extractLsb' 0 2 := by
    ext i hi
    obtain rfl | rfl : i = 0 ∨ i = 1 := by omega
    all_goals simp
  rw [writeCfg, writeCfg, hwidth]
  simp

/-- A write of STATUS looks at bit 8 alone (10_state.md R31, R42). -/
theorem writeStatus_and (v : Word) (s : State) : writeStatus v s = writeStatus (v &&& 0x00000100) s := by
  simp [writeStatus]

/-- A write of STATUS clears OVR where bit 8 is 1 (10_state.md R31). -/
theorem writeStatus_eq (v : Word) (s : State) : writeStatus v s = if v.getLsbD 8 then { s with ovr := false } else s := by
  cases hv : v.getLsbD 8 <;> simp only [writeStatus, hv, Bool.not_true, Bool.not_false, Bool.and_true, Bool.and_false] <;> rfl

/-- Settles O34: the offsets select nothing, and both words are short. -/
theorem unmappedAndReservedReadZero : Obligations.UnmappedAndReservedReadZero := by
  refine ⟨fun s off data hlo hhi ha => ?_, fun s => ⟨ushiftRight_eq_zero (cfgWord_lt s), ushiftRight_eq_zero (statusWord_lt s)⟩,
    fun s v => ⟨writeCfg_and v s, writeStatus_and v s⟩⟩
  rw [hostWrite_window ha, hostRead_window ha, slotOf_unmapped hlo hhi]
  exact ⟨rfl, rfl⟩

/-- The bits of STATUS above OVR are 0 (10_state.md R31). -/
theorem statusWord_reserved (s : State) : (statusWord s).extractLsb' 9 23 = 0 := by
  have hdiv : (statusWord s).toNat / 2 ^ 9 = 0 := Nat.div_eq_of_lt (statusWord_lt s)
  apply BitVec.eq_of_toNat_eq
  rw [BitVec.extractLsb'_toNat, Nat.shiftRight_eq_div_pow, hdiv]
  rfl

/-- Settles O35, field by field. -/
theorem statusWordLayout : Obligations.StatusWordLayout :=
  fun s => ⟨statusWord_busy s, statusWord_tvalid s, statusWord_twidth s, statusWord_err s, statusWord_ovr s,
    statusWord_reserved s, rfl, by decide, fun v => congrArg Host.Outcome.next (writeStatus_eq v s)⟩

/-! ### What a read returns (10_state.md R43) -/

/-- RESULT and ACC read while BUSY = 1 are free. -/
theorem readReg_busy (hb : s.busy = true) : readReg .result s = readAny s ∧ readReg .acc s = readAny s := by
  simp [readReg, hb]

/-- RESULT and ACC read while BUSY = 0 are exact. -/
theorem readReg_idle (hb : s.busy = false) : readReg .result s = (s.result, s) ∧ readReg .acc s = (s.acc, s) := by
  simp [readReg, hb]

/-- A TABLE entry read while TVALID = 0 is free. -/
theorem readTable_invalid (i : Byte) (hv : s.tvalid = false) : readTable i s = readAny s := by
  simp [readTable, hv]

/-- A written TABLE entry read while TVALID = 1 is exact. -/
theorem readTable_valid {i : Byte} {v : Word} (hv : s.tvalid = true) (hi : s.table.get i.toFin = some v) :
    readTable i s = (v, s) := by
  simp [readTable, hv, hi]

/-- Settles O36: the free reads and the exact ones, each by its condition. -/
theorem onlyTheNamedReadsAreFree : Obligations.OnlyTheNamedReadsAreFree :=
  ⟨fun _ hb => readReg_busy hb, fun _ i hv => readTable_invalid i hv, fun _ hb => readReg_idle hb,
    fun _ _ _ hv hi => readTable_valid hv hi, fun _ => ⟨rfl, rfl, rfl, rfl, rfl, rfl, rfl, rfl, rfl, rfl⟩⟩

/-! ### Reset -/

/-- Both words read 0 at reset (10_state.md R44). -/
theorem reset_words : cfgWord State.reset = 0 ∧ statusWord State.reset = 0 := by decide

/-- The reset input brings the fields of both words to their reset values (10_state.md R44). -/
theorem resetBlock_words (s : State) : cfgWord (resetBlock s) = 0 ∧ statusWord (resetBlock s) = 0 := reset_words

/-- Right after reset COMPUTE finds no valid table (60_exceptions.md R174). -/
theorem exec_compute_resetBlock (s : State) : exec .compute (resetBlock s) = .next (raiseErr errTable (resetBlock s)) := rfl

/-- Settles O50: the reset values, and TVALID = 0 makes TABLE unobservable. -/
theorem resetValues : Obligations.ResetValues := by
  obtain ⟨hcfg, hstatus⟩ := reset_words
  refine ⟨fun s => ?_, hcfg, rfl, rfl, rfl, rfl, rfl, rfl, hstatus, rfl, rfl, rfl, rfl, rfl⟩
  obtain ⟨hcfg', hstatus'⟩ := resetBlock_words s
  exact ⟨hcfg', rfl, rfl, rfl, rfl, rfl, rfl, hstatus', rfl, rfl, rfl, rfl, fun i => readTable_invalid i rfl,
    exec_compute_resetBlock s⟩

end Sys2Proof.Machine
end

section
/-! PROOFS. What each part of a command's state changes by: the table and its tag, BUSY, ERR, RESULT and ACC, the operand registers. -/

namespace Sys2Proof.Machine

variable {s t : State}

/-! ### Who moves -/

/-- The Engine moves where the next move is the Engine's. -/
theorem engineMoves_of (h : nextMove s = .engine) : engineMoves s = true := by
  rw [engineMoves, h]; rfl

/-- The reset input is asserted where the next move is reset. -/
theorem resetMoves_of (h : nextMove s = .reset) : resetMoves s = true := by
  rw [resetMoves, h]; rfl

/-! ### Accepting a command -/

/-- OP and N are all there is to a word whose reserved bits are clear (30_encoding.md R81). -/
theorem toNat_of_reservedClear {v : Word} (h : reservedClear v = true) :
    v.toNat = (opField v).toNat + 256 * (countField v).toNat := by
  simp only [reservedClear, Bool.and_eq_true, beq_iff_eq] at h
  obtain ⟨hhigh, hmid⟩ := h
  have h1 := congrArg BitVec.toNat hhigh
  have h2 := congrArg BitVec.toNat hmid
  simp only [BitVec.extractLsb'_toNat, Nat.shiftRight_eq_div_pow, BitVec.ofNat_eq_ofNat, BitVec.toNat_ofNat] at h1 h2
  simp only [opField, countField, BitVec.extractLsb'_toNat, Nat.shiftRight_eq_div_pow]
  omega

/-- The one word of GENTAB (30_encoding.md R84). -/
theorem eq_encode_of_decode_gentab {v : Word} (h : decode v = .command .gentab) : v = encode .gentab := by
  unfold decode at h
  split at h
  · rename_i hr
    have hv := toNat_of_reservedClear hr
    split at h
    · rename_i hop
      split at h
      · rename_i hc
        apply BitVec.eq_of_toNat_eq
        rw [hv, hop, hc]
        rfl
      · cases h
    · split at h <;> cases h
    · cases h
    · cases h
  · cases h

/-- A word that R87 does not exclude decodes by its OP (30_encoding.md R83, R87, R88). -/
theorem decode_of_not_illegalWord {v : Word} (h : illegalWord v = false) :
    (opField v = 1 ∧ decode v = .command .gentab) ∨ (opField v = 2 ∧ decode v = .command .compute) ∨
    (opField v = 3 ∧ decode v = .command (.reflect (countField v).toNat)) := by
  simp only [illegalWord, Bool.or_eq_false_iff, Bool.and_eq_false_imp, beq_eq_false_iff_ne,
    decide_eq_false_iff_not, bne_eq_false_iff_eq, Bool.or_eq_true, beq_iff_eq] at h
  obtain ⟨⟨⟨⟨hop0, hop4⟩, hmid⟩, hhigh⟩, hcount⟩ := h
  have hres : reservedClear v = true := by simp [reservedClear, hmid, hhigh]
  have hop : opField v = 1 ∨ opField v = 2 ∨ opField v = 3 :=
    (by decide : ∀ op : BitVec 4, op ≠ 0 → ¬ 4 ≤ op.toNat → op = 1 ∨ op = 2 ∨ op = 3) _ hop0 hop4
  have hzero : opField v = 1 ∨ opField v = 2 → countField v = 0 := hcount
  obtain hop | hop | hop := hop
  · exact .inl ⟨hop, by simp [decode, hres, hop, hzero (.inl hop)]⟩
  · exact .inr (.inl ⟨hop, by simp [decode, hres, hop, hzero (.inr hop)]⟩)
  · exact .inr (.inr ⟨hop, by simp [decode, hres, hop]⟩)

/-- GENTAB with a legal width is accepted (41_table_generator.md R123). -/
theorem exec_gentab_accepts {w : Width} (hb : s.busy = false) (hw : widthOfCode s.width = some w) :
    exec .gentab s = .next (accept (gentabLatch w s) { s with tvalid := false }) := by
  simp [exec, execGentab, hb, hw]

/-- COMPUTE with a table of its width and a buffer in range is accepted (42_crc_compute.md R148). -/
theorem exec_compute_accepts {w : Width} (hb : s.busy = false) (hw : widthOfCode s.width = some w)
    (ht : tableMatches w s = true) (hr : bufferInRange s.daddr s.dlen = true) :
    exec .compute s = .next (accept (computeLatch w s) s) := by
  simp [exec, execCompute, hb, hw, ht, hr]

/-- REFLECT with a count up to 32 is accepted (40_reflect.md R102). -/
theorem exec_reflect_accepts {n : Nat} (hb : s.busy = false) (hn : n ≤ 32) :
    exec (.reflect n) s = .next (accept (reflectLatch n s) s) := by
  simp [exec, execReflect, hb, Nat.not_lt.mpr hn]

/-- A command's word issued while BUSY = 0 is the command. -/
theorem issue_command {v : Word} {i : Instr} (hb : s.busy = false) (hd : decode v = .command i) : issue v s = exec i s := by
  simp [issue, hb, hd]

/-- A width code other than 3 is a width's (10_state.md R23). -/
theorem exists_widthOfCode {c : BitVec 2} (h : c ≠ 3) : ∃ w, widthOfCode c = some w :=
  Option.ne_none_iff_exists'.mp (mt widthOfCode_eq_none.mp h)

/-- A chain of alternatives answers `none` where each is passed over. -/
theorem ite_some_eq_none {α : Type} {c : Prop} [Decidable c] {x : α} {y : Option α} :
    (if c then some x else y) = none ↔ ¬ c ∧ y = none := by
  split <;> simp [*]

/-- No condition of 60_exceptions.md R180, rows 2 to 5, holds for the word: each row read as what it excludes. -/
theorem firstError_eq_none {v : Word} {s : State} : firstError v s = none ↔
    ¬ illegalWord v = true ∧ (opField v = 3 → (countField v).toNat ≤ 32) ∧ (opField v ≠ 3 → s.width ≠ 3) ∧
    (opField v = 2 → s.tvalid = true ∧ s.twidth = s.width) ∧
    (opField v = 2 → 0 < s.dlen.toNat → s.daddr.toNat + s.dlen.toNat ≤ 4294967296) := by
  simp only [firstError, ite_some_eq_none, and_true,
    Bool.and_eq_true, beq_iff_eq, decide_eq_true_eq, Nat.not_lt, not_and, bne_iff_ne, Bool.or_eq_true, Bool.not_eq_true', not_or,
    Bool.not_eq_false, not_not, and_imp, ne_eq]
  exact Iff.rfl
/-- A word for which none of the conditions of 60_exceptions.md R180 holds is accepted while BUSY = 0. -/
theorem issue_accepts {v : Word} (hb : s.busy = false) (hf : firstError v s = none) :
    ∃ l u, issue v s = .next (accept l u) := by
  obtain ⟨hlegal, hcount, hwidth, htag, hrange⟩ := firstError_eq_none.mp hf
  obtain ⟨hop, hd⟩ | ⟨hop, hd⟩ | ⟨hop, hd⟩ := decode_of_not_illegalWord (Bool.eq_false_iff.mpr hlegal) <;>
    rw [issue_command hb hd]
  · obtain ⟨w, hw⟩ := exists_widthOfCode (hwidth (by simp [hop]))
    exact ⟨_, _, exec_gentab_accepts hb hw⟩
  · obtain ⟨w, hw⟩ := exists_widthOfCode (hwidth (by simp [hop]))
    obtain ⟨hv, htw⟩ := htag hop
    have htable : tableMatches w s = true := by simp [tableMatches, hv, htw, widthOfCode_eq_some.mp hw]
    have hbuf : bufferInRange s.daddr s.dlen = true := by
      have := hrange hop
      simp only [bufferInRange, Config.addressSpace, Bool.or_eq_true, decide_eq_true_eq]
      omega
    exact ⟨_, _, exec_compute_accepts hb hw htable hbuf⟩
  · exact ⟨_, _, exec_reflect_accepts hb (hcount hop)⟩

/-! ### The fields of a command, one by one -/

/-- A word written to CMD leaves TABLE, TWIDTH, RESULT and ACC alone (60_exceptions.md R178). -/
theorem IssueEffect.frame {v : Word} (h : IssueEffect s v t) :
    t.table = s.table ∧ t.twidth = s.twidth ∧ t.result = s.result ∧ t.acc = s.acc := by
  cases h with
  | ignored => exact ⟨rfl, rfl, rfl, rfl⟩
  | rejected => exact ⟨rfl, rfl, rfl, rfl⟩
  | accepted hb i _ hd ha => cases ha <;> exact ⟨rfl, rfl, rfl, rfl⟩

/-- Settles O19: of the Engine's completions only GENTAB's writes TABLE. -/
theorem onlyGentabWritesTheTable : Obligations.OnlyGentabWritesTheTable := by
  intro s t h hne
  obtain ⟨hm, he⟩ | ⟨hm, rfl⟩ | ⟨v, -, hi⟩ | hc := step_command h
  · cases he with
    | gentab w p hb hl => exact .inl ⟨engineMoves_of hm, hb, w, p, hl, rfl, rfl, rfl⟩
    | idle => exact absurd rfl hne
    | compute w ri ro i x a n =>
      obtain ⟨e, acc, res, d, hp⟩ := performCompute_frame w ri ro i x a n (takeMove s)
      rw [hp] at hne; exact absurd rfl hne
    | reflect => exact absurd rfl hne
  · exact .inr ⟨resetMoves_of hm, rfl⟩
  · obtain ⟨htable, -⟩ := hi.frame
    exact absurd htable hne
  · exact absurd hc.table hne

/-- A word written to CMD changes TVALID only where it is an accepted GENTAB (10_state.md R33). -/
theorem IssueEffect.tvalid {v : Word} (h : IssueEffect s v t) :
    t.tvalid = s.tvalid ∨ (s.busy = false ∧ s.width ≠ 3 ∧ v = encode .gentab ∧ t.busy = true) := by
  cases h with
  | ignored => exact .inl rfl
  | rejected => exact .inl rfl
  | accepted hb i _ hd ha =>
    cases ha with
    | gentab w hw =>
      have hlegal : s.width ≠ 3 := fun h3 => by rw [widthOfCode_eq_none.mpr h3] at hw; cases hw
      exact .inr ⟨hb, hlegal, eq_encode_of_decode_gentab hd, rfl⟩
    | compute => exact .inl rfl
    | reflect => exact .inl rfl

/-- A step that changes the table tag is an accepted GENTAB, its completion, or reset (10_state.md R33). -/
theorem step_tag (h : step s = .next t) (hne : t.tvalid ≠ s.tvalid ∨ t.twidth ≠ s.twidth) :
    (s.busy = false ∧ s.width ≠ 3 ∧ nextRegWrite .cmd s = some (encode .gentab) ∧ t.busy = true) ∨
    (engineMoves s = true ∧ s.busy = true ∧ ∃ w p, s.latch = some (.gentab w p)) ∨ resetMoves s = true := by
  have habsurd : ¬ (t.tvalid = s.tvalid ∧ t.twidth = s.twidth) := fun ⟨hv, hw⟩ => hne.elim (· hv) (· hw)
  obtain ⟨hm, he⟩ | ⟨hm, -⟩ | ⟨v, hw, hi⟩ | hc := step_command h
  · cases he with
    | gentab w p hb hl => exact .inr (.inl ⟨engineMoves_of hm, hb, w, p, hl⟩)
    | idle => exact absurd ⟨rfl, rfl⟩ habsurd
    | compute w ri ro i x a n =>
      obtain ⟨e, acc, res, d, hp⟩ := performCompute_frame w ri ro i x a n (takeMove s)
      rw [hp] at habsurd; exact absurd ⟨rfl, rfl⟩ habsurd
    | reflect => exact absurd ⟨rfl, rfl⟩ habsurd
  · exact .inr (.inr (resetMoves_of hm))
  · obtain ⟨-, htw, -, -⟩ := hi.frame
    obtain htv | ⟨hb, hlegal, rfl, hbt⟩ := hi.tvalid
    · exact absurd ⟨htv, htw⟩ habsurd
    · exact .inl ⟨hb, hlegal, hw, hbt⟩
  · exact absurd ⟨hc.tvalid, hc.twidth⟩ habsurd

/-- A word written to CMD never clears BUSY, and sets it by accepting the command it decodes to (10_state.md R32). -/
theorem IssueEffect.busy {v : Word} (h : IssueEffect s v t) :
    t.busy = s.busy ∨ (s.busy = false ∧ t.busy = true ∧ t.latch.isSome = true ∧ ∃ i, decode v = .command i) := by
  cases h with
  | ignored => exact .inl rfl
  | rejected => exact .inl rfl
  | accepted hb i _ hd ha => cases ha <;> exact .inr ⟨hb, rfl, rfl, _, hd⟩

/-- The Engine's turn does nothing or leaves BUSY = 0 (10_state.md R41). -/
theorem EngineEffect.busy (h : EngineEffect s t) : (t = s ∧ (s.busy = false ∨ s.latch = none)) ∨ t.busy = false := by
  cases h with
  | idle h => exact .inl ⟨rfl, h⟩
  | gentab => exact .inr rfl
  | compute w ri ro i x a n =>
    obtain ⟨e, acc, res, d, hp⟩ := performCompute_frame w ri ro i x a n s
    rw [hp]; exact .inr rfl
  | reflect => exact .inr rfl

/-- BUSY is set only by a command's word written to CMD. -/
theorem step_sets_busy (h : step s = .next t) (hs : s.busy = false) (ht : t.busy = true) :
    ∃ v i, nextRegWrite .cmd s = some v ∧ decode v = .command i ∧ t.latch.isSome = true := by
  obtain ⟨-, he⟩ | ⟨-, rfl⟩ | ⟨v, hw, hi⟩ | hc := step_command h
  · obtain ⟨rfl, -⟩ | hb := he.busy
    · simp [hs] at ht
    · simp [hb] at ht
  · cases ht
  · obtain hb | ⟨-, -, hl, i, hd⟩ := hi.busy
    · rw [takeAction_busy] at hb; simp [hb, hs] at ht
    · exact ⟨v, i, hw, hd, hl⟩
  · simp [hc.busy, hs] at ht

/-- BUSY is cleared only by the Engine or by reset. -/
theorem step_clears_busy (h : step s = .next t) (hs : s.busy = true) (ht : t.busy = false) :
    engineMoves s = true ∨ resetMoves s = true := by
  obtain ⟨hm, -⟩ | ⟨hm, -⟩ | ⟨v, -, hi⟩ | hc := step_command h
  · exact .inl (engineMoves_of hm)
  · exact .inr (resetMoves_of hm)
  · obtain hb | ⟨-, hb, -⟩ := hi.busy
    · rw [takeAction_busy] at hb; simp [hb, hs] at ht
    · simp [hb] at ht
  · simp [hc.busy, hs] at ht

/-- In a sound state the Engine's turn leaves BUSY = 0 (10_state.md R41). -/
theorem State.Inv.engineTurn_busy (hi : s.Inv) : (engineTurn s).busy = false := by
  obtain ⟨he, hidle⟩ | hb := (engineTurn_effect s).busy
  · have hb : s.busy = false := hidle.elim id fun hl => by rw [← hi.latch_iff_busy, hl]; rfl
    rw [he, hb]
  · exact hb

/-- Settles O45: BUSY follows the command through its acceptance and its completion. -/
theorem busyRule : Obligations.BusyRule := by
  refine ⟨fun _ _ => step_sets_busy, fun _ _ => step_clears_busy, fun s v hb hf => ?_, fun _ hi => hi.engineTurn_busy,
    fun _ hi => hi.latch_isSome⟩
  obtain ⟨l, u, hu⟩ := issue_accepts hb hf
  exact ⟨_, hu, rfl⟩

/-- Settles O20: the tag's four rules; a rejected GENTAB leaves BUSY = 0 and changes ERR alone. -/
theorem tableTagRule : Obligations.TableTagRule := by
  refine ⟨fun s w hb hw => ?_, fun s w p hb hl => ?_, fun _ _ => step_tag, statusWord_twidth⟩
  · exact ⟨_, exec_gentab_accepts hb (widthOfCode_eq_some.mpr hw), rfl, rfl⟩
  · rw [engineTurn_gentab hb hl]
    exact ⟨rfl, rfl⟩

/-- The Engine's turn changes ERR only where it ends a COMPUTE with a refused read, and then to 5 (42_crc_compute.md R150). -/
theorem EngineEffect.err (h : EngineEffect s t) :
    t.err = s.err ∨ (s.busy = true ∧ t.err = 5 ∧
      ∃ w ri ro i x a n, s.latch = some (.compute w ri ro i x a n) ∧ ¬ bufferAdmitted s.platform a.toNat n.toNat) := by
  cases h with
  | idle => exact .inl rfl
  | gentab => exact .inl rfl
  | compute w ri ro i x a n hb hl =>
    obtain ⟨hn, he⟩ | he := performCompute_err w ri ro i x a n s
    · exact .inr ⟨hb, he, w, ri, ro, i, x, a, n, hl, hn⟩
    · exact .inl he
  | reflect => exact .inl rfl

/-- A word written to CMD changes ERR only while BUSY = 0 (60_exceptions.md R177). -/
theorem IssueEffect.err {v : Word} (h : IssueEffect s v t) : t.err = s.err ∨ s.busy = false := by
  cases h with
  | ignored => exact .inl rfl
  | rejected hb => exact .inr hb
  | accepted hb => exact .inr hb

/-- Settles O46: ERR by the four kinds of step. -/
theorem errChangesOnlyByItsRule : Obligations.ErrChangesOnlyByItsRule := by
  intro s t h hne
  obtain ⟨hm, he⟩ | ⟨hm, rfl⟩ | ⟨v, hw, hi⟩ | hc := step_command h
  · obtain he | ⟨hb, herr, hbuf⟩ := he.err
    · exact absurd he hne
    · exact .inr (.inl ⟨engineMoves_of hm, hb, herr, hbuf⟩)
  · exact .inr (.inr ⟨resetMoves_of hm, rfl⟩)
  · obtain he | hb := hi.err
    · exact absurd he hne
    · exact .inl ⟨hb, v, hw⟩
  · exact absurd hc.err hne

/-- A step that changes RESULT or ACC is reset, or completes a REFLECT, which leaves ACC alone, or a COMPUTE (10_state.md R36, R37). -/
theorem step_results (h : step s = .next t) (hr : resetMoves s = false) :
    (t.result = s.result ∧ t.acc = s.acc) ∨
    (engineMoves s = true ∧ s.busy = true ∧ t.busy = false ∧
      ((t.acc = s.acc ∧ ∃ a n, s.latch = some (.reflect a n)) ∨ ∃ w ri ro i x a n, s.latch = some (.compute w ri ro i x a n))) := by
  obtain ⟨hm, he⟩ | ⟨hm, -⟩ | ⟨v, -, hi⟩ | hc := step_command h
  · cases he with
    | idle => exact .inl ⟨rfl, rfl⟩
    | gentab => exact .inl ⟨rfl, rfl⟩
    | compute w ri ro i x a n hb hl =>
      have hbusy : (performCompute w ri ro i x a n (takeMove s)).busy = false := by
        obtain ⟨e, acc, res, d, hp⟩ := performCompute_frame w ri ro i x a n (takeMove s)
        rw [hp]
      exact .inr ⟨engineMoves_of hm, hb, hbusy, .inr ⟨w, ri, ro, i, x, a, n, hl⟩⟩
    | reflect a n hb hl => exact .inr ⟨engineMoves_of hm, hb, rfl, .inl ⟨rfl, a, n, hl⟩⟩
  · rw [resetMoves_of hm] at hr; cases hr
  · obtain ⟨-, -, hres, hacc⟩ := hi.frame
    exact .inl ⟨hres, hacc⟩
  · exact .inl ⟨hc.result, hc.acc⟩

/-- Settles O47: what each completion writes of RESULT and ACC. -/
theorem resultsChangeOnlyOnCompletion : Obligations.ResultsChangeOnlyOnCompletion := by
  intro s t h hr
  obtain ⟨hres, hacc⟩ | ⟨hm, hb, hbt, hl⟩ := step_results h hr
  · exact ⟨absurd hres, absurd hacc⟩
  · refine ⟨fun _ => ⟨hm, hb, hbt, hl.imp_left And.right⟩, fun hne => ⟨hm, hb, hbt, ?_⟩⟩
    exact hl.resolve_left fun ⟨hacc, _⟩ => hne hacc

/-! ### The operand registers -/

/-- The Engine's turn leaves the operand registers alone (10_state.md R41). -/
theorem EngineEffect.sameOperands (h : EngineEffect s t) : SameOperands s t := by
  cases h with
  | idle => constructor <;> rfl
  | gentab => constructor <;> rfl
  | compute w ri ro i x a n =>
    obtain ⟨e, acc, res, d, hp⟩ := performCompute_frame w ri ro i x a n s
    rw [hp]; constructor <;> rfl
  | reflect => constructor <;> rfl

/-- A word written to CMD leaves the operand registers alone (60_exceptions.md R178). -/
theorem IssueEffect.sameOperands {v : Word} (h : IssueEffect s v t) : SameOperands s t := by
  cases h with
  | ignored => constructor <;> rfl
  | rejected => constructor <;> rfl
  | accepted hb i _ hd ha => cases ha <;> constructor <;> rfl

/-- The operand registers that hold a whole word (10_state.md R24 to R29). -/
def wordOperands : List Reg := [.poly, .init, .xorout, .daddr, .dlen, .opa]

/-- What a word operand register holds is what a host read returns, and states with the same operands agree in it. -/
theorem SameOperands.readReg_fst (h : SameOperands s t) {r : Reg} (hr : r ∈ wordOperands) : (readReg r t).1 = (readReg r s).1 := by
  simp only [wordOperands, List.mem_cons, List.not_mem_nil, or_false] at hr
  obtain rfl | rfl | rfl | rfl | rfl | rfl := hr
  exacts [h.poly, h.init, h.xorout, h.daddr, h.dlen, h.opa]

/-- A write of a register stores the word in it, where it holds a whole word, and leaves the other word operands alone. -/
theorem writeReg_readReg_fst {r r' : Reg} {v : Word} (h : writeReg r v s = .next t) (hr' : r' ∈ wordOperands) :
    (r = r' ∧ (readReg r' t).1 = v) ∨ (readReg r' t).1 = (readReg r' s).1 := by
  cases r with
  | cmd => exact .inr ((issue_effect h).sameOperands.readReg_fst hr')
  | _ =>
    cases h
    simp only [wordOperands, List.mem_cons, List.not_mem_nil, or_false] at hr'
    obtain rfl | rfl | rfl | rfl | rfl | rfl := hr' <;> simp [readReg]

/-- A write of a register other than CFG leaves WIDTH, REFIN and REFOUT alone (10_state.md R22). -/
theorem writeReg_cfg {r : Reg} {v : Word} (h : writeReg r v s = .next t) :
    (r = .cfg ∧ t = writeCfg v s) ∨ (t.width = s.width ∧ t.refin = s.refin ∧ t.refout = s.refout) := by
  cases r with
  | cfg => cases h; exact .inl ⟨rfl, rfl⟩
  | cmd =>
    have ho := (issue_effect h).sameOperands
    exact .inr ⟨ho.width, ho.refin, ho.refout⟩
  | _ => cases h; exact .inr ⟨rfl, rfl, rfl⟩

/-- A step other than reset keeps the operand registers or is a host write of a register (10_state.md R21). -/
theorem step_operands (h : step s = .next t) (hr : resetMoves s = false) :
    SameOperands s t ∨ ∃ r v, nextRegWrite r s = some v ∧ writeReg r v (takeAction s) = .next t := by
  cases step_effect h with
  | engine =>
    obtain ⟨hwd, hri, hro, hp, hi, hx, ha, hn, ho⟩ := (engineTurn_effect (takeMove s)).sameOperands
    exact .inl ⟨hwd, hri, hro, hp, hi, hx, ha, hn, ho⟩
  | reset hm => rw [resetMoves_of hm] at hr; cases hr
  | records => exact .inl (by constructor <;> rfl)
  | regWrite r v _ hw hx => exact .inr ⟨r, v, hw, hx⟩
  | stored => exact .inl (by constructor <;> simp)
  | raced => exact .inl (by constructor <;> simp)

/-- A step other than reset changes a word operand register only by a host write of it, which stores what it writes. -/
theorem step_wordOperand (h : step s = .next t) (hr : resetMoves s = false) {r : Reg} (hmem : r ∈ wordOperands)
    (hne : (readReg r t).1 ≠ (readReg r s).1) : nextRegWrite r s = some (readReg r t).1 := by
  obtain ho | ⟨r', v, hw, hx⟩ := step_operands h hr
  · exact absurd (ho.readReg_fst hmem) hne
  · have htake : SameOperands s (takeAction s) := by constructor <;> rfl
    obtain ⟨rfl, hv⟩ | hsame := writeReg_readReg_fst hx hmem
    · rw [hv, hw]
    · exact absurd (hsame.trans (htake.readReg_fst hmem)) hne

/-- A step other than reset changes CFG only by a host write of it, which stores its low bits (10_state.md R22). -/
theorem step_cfg (h : step s = .next t) (hr : resetMoves s = false)
    (hne : t.width ≠ s.width ∨ t.refin ≠ s.refin ∨ t.refout ≠ s.refout) :
    ∃ v, nextRegWrite .cfg s = some v ∧ t.width = v.extractLsb' 0 2 ∧ t.refin = v.getLsbD 2 ∧ t.refout = v.getLsbD 3 := by
  have habsurd : ¬ (t.width = s.width ∧ t.refin = s.refin ∧ t.refout = s.refout) := fun ⟨hw, hi, ho⟩ =>
    hne.elim (· hw) (·.elim (· hi) (· ho))
  obtain ho | ⟨r, v, hw, hx⟩ := step_operands h hr
  · exact absurd ⟨ho.width, ho.refin, ho.refout⟩ habsurd
  · obtain ⟨rfl, rfl⟩ | hsame := writeReg_cfg hx
    · exact ⟨v, hw, rfl, rfl, rfl⟩
    · exact absurd hsame habsurd

/-- Settles O39: CFG by its fields, each other operand register by the word it holds. -/
theorem operandRegistersChangeOnlyByWrites : Obligations.OperandRegistersChangeOnlyByWrites :=
  fun _ _ h hr => ⟨step_cfg h hr, step_wordOperand h hr (r := .poly) (by decide), step_wordOperand h hr (r := .init) (by decide),
    step_wordOperand h hr (r := .xorout) (by decide), step_wordOperand h hr (r := .daddr) (by decide),
    step_wordOperand h hr (r := .dlen) (by decide), step_wordOperand h hr (r := .opa) (by decide)⟩

end Sys2Proof.Machine
end

section
/-! PROOFS. The host's accesses by bus address: registers read back, refused accesses, the bytes of external memory, the buffer race,
and the table while a COMPUTE runs (20_memory.md R60 to R65, R71, R77, R78). -/

namespace Sys2Proof.Machine

variable {s t : State}

/-! ### The table while a COMPUTE runs (20_memory.md R78) -/

/-- A latched command of a sound state means BUSY = 1 (10_state.md R40). -/
theorem State.Inv.busy_of_latch (hi : s.Inv) {l : Latch} (hl : s.latch = some l) : s.busy = true := by
  rw [← hi.latch_iff_busy, hl]; rfl

/-- A COMPUTE latched in a sound state has a valid table. -/
theorem State.Inv.tvalid_of_compute (hi : s.Inv) {w : Width} {ri ro : Bool} {i x a n : Word}
    (hl : s.latch = some (.compute w ri ro i x a n)) : s.tvalid = true := by
  have hsound := hi.latch_sound _ hl
  simp only [latchSound, tableMatches, Bool.and_eq_true] at hsound
  obtain ⟨⟨hv, -⟩, -⟩ := hsound
  exact hv

/-- A valid table of a sound state is read exactly (10_state.md R39, R43). -/
theorem State.Inv.readTable_exact (hi : s.Inv) (hv : s.tvalid = true) (k : Byte) :
    ∃ v, s.table.get k.toFin = some v ∧ readTable k s = (v, s) := by
  obtain ⟨_, -, hsound⟩ := hi.table_complete hv
  obtain ⟨v, hk, -⟩ := hsound k
  exact ⟨v, hk, readTable_valid hv hk⟩

/-- No step but reset writes TABLE while a COMPUTE is latched. -/
theorem step_table_of_compute (h : step s = .next t) (hr : resetMoves s = false) {w : Width} {ri ro : Bool} {i x a n : Word}
    (hl : s.latch = some (.compute w ri ro i x a n)) : t.table = s.table := by
  by_contra hne
  obtain ⟨-, -, _, _, hg, -⟩ | ⟨hm, -⟩ := onlyGentabWritesTheTable s t h hne
  · rw [hl] at hg; cases hg
  · rw [hr] at hm; cases hm

/-- No step but reset changes TVALID while a COMPUTE runs: the command written would be ignored, and the one latched is no GENTAB. -/
theorem step_tvalid_of_compute (h : step s = .next t) (hr : resetMoves s = false) (hb : s.busy = true) {w : Width} {ri ro : Bool}
    {i x a n : Word} (hl : s.latch = some (.compute w ri ro i x a n)) : t.tvalid = s.tvalid := by
  by_contra hne
  obtain ⟨hidle, -⟩ | ⟨-, -, _, _, hg⟩ | hm := step_tag h (.inl hne)
  · rw [hb] at hidle; cases hidle
  · rw [hl] at hg; cases hg
  · rw [hr] at hm; cases hm

/-- Settles O29: the latch's soundness gives the table, and neither rule that changes it can apply. -/
theorem tableIsReadableDuringCompute : Obligations.TableIsReadableDuringCompute := by
  intro s w ri ro i x a n hi hl
  have hv := hi.tvalid_of_compute hl
  refine ⟨hv, hi.readTable_exact hv, fun t h hr => ⟨?_, step_table_of_compute h hr hl⟩⟩
  rw [step_tvalid_of_compute h hr (hi.busy_of_latch hl) hl, hv]

/-! ### The bytes of a host memory write (20_memory.md R60, R65) -/

/-- With HOST_ENDIAN little, byte k of the datum lies at the write's address plus k. -/
theorem laneBytes_little_getElem {size : Access} {data : BitVec 64} {k : Nat}
    (hk : k < (laneBytes .little size data).length) : (laneBytes .little size data)[k] = laneByte data k := by
  simp [laneBytes]

/-- With HOST_ENDIAN big, the bytes of the datum lie in the opposite order. -/
theorem laneBytes_big_getElem {size : Access} {data : BitVec 64} {k : Nat}
    (hk : k < (laneBytes .big size data).length) :
    (laneBytes .big size data)[k] = laneByte data (accessBytes size - 1 - k) := by
  simp [laneBytes]

/-- A host write outside the window that stays inside the address space stores its bytes, after the race check. -/
theorem hostWrite_memory {addr : Word} {size : Access} (data : BitVec 64) (ho : windowOffset s.platform addr = none)
    (hb : addr.toNat + accessBytes size ≤ Config.addressSpace) :
    hostWrite addr size data s =
      .next (storeBytes addr size data (if races addr (accessBytes size) s then recordRace addr s else s)) := by
  simp [hostWrite, ho, memoryWrite, Nat.not_lt.mpr hb]

/-- Such a write leaves the same memory whether it races or not (20_memory.md R77). -/
theorem hostWrite_memory_mem {addr : Word} {size : Access} (data : BitVec 64) (ho : windowOffset s.platform addr = none)
    (hb : addr.toNat + accessBytes size ≤ Config.addressSpace) :
    ∃ t, hostWrite addr size data s = .next t ∧
      t.mem = memSetList s.mem addr.toNat (laneBytes s.platform.endian size data) := by
  refine ⟨_, hostWrite_memory data ho hb, ?_⟩
  split <;> simp

/-- Settles O41: the frame and the read-back of the bytes written, in either order. -/
theorem memoryWriteStoresItsBytes : Obligations.MemoryWriteStoresItsBytes := by
  intro s addr size data hwf ho hb
  obtain ⟨t, ht, hmem⟩ := hostWrite_memory_mem data ho hb
  refine ⟨t, ht, fun a ha => ?_, fun k hk => ?_⟩
  · rw [hmem, memByte_memSetList_outside _ _ (by rw [laneBytes_length]; omega)]
  · rw [hmem, memByte_memSetList_inside hwf _ (by rw [laneBytes_length]; exact hb) (by rw [laneBytes_length]; exact hk)]
    cases s.platform.endian with
    | little => exact laneBytes_little_getElem _
    | big => exact laneBytes_big_getElem _

/-! ### Who writes external memory -/

/-- The Engine's turn leaves external memory alone (20_memory.md R60). -/
theorem EngineEffect.mem (h : EngineEffect s t) : t.mem = s.mem := by
  cases h with
  | idle => rfl
  | gentab => rfl
  | compute w ri ro i x a n =>
    obtain ⟨e, acc, res, d, hp⟩ := performCompute_frame w ri ro i x a n s
    rw [hp]
  | reflect => rfl

/-- A word written to CMD leaves external memory alone (60_exceptions.md R178). -/
theorem IssueEffect.mem {v : Word} (h : IssueEffect s v t) : t.mem = s.mem := by
  cases h with
  | ignored => rfl
  | rejected => rfl
  | accepted hb i _ hd ha => cases ha <;> rfl

/-- A host write of a register leaves external memory alone. -/
theorem writeReg_mem {r : Reg} {v : Word} (h : writeReg r v s = .next t) : t.mem = s.mem := by
  by_cases hr : r = .cmd
  · subst hr; exact (issue_effect h).mem
  · obtain ⟨_, _, _, _, _, _, _, _, _, _, rfl⟩ := writeReg_frame hr h
    rfl

/-- A step keeps memory, or is a host memory write and stores its bytes. -/
theorem step_mem (h : step s = .next t) :
    t.mem = s.mem ∨ ∃ addr size data, nextMemWrite s = some (addr, size, data) ∧
      t.mem = memSetList s.mem addr.toNat (laneBytes s.platform.endian size data) := by
  cases step_effect h with
  | engine => exact .inl (engineTurn_effect (takeMove s)).mem
  | reset => exact .inl rfl
  | records => exact .inl rfl
  | regWrite r v _ _ hx => exact .inl (writeReg_mem (s := takeAction s) hx)
  | stored addr size data hw => exact .inr ⟨addr, size, data, hw, rfl⟩
  | raced addr size data hw => exact .inr ⟨addr, size, data, hw, rfl⟩

/-- Settles O42: a host memory write leaves the bytes that it does not cover. -/
theorem onlyHostWritesChangeMemory : Obligations.OnlyHostWritesChangeMemory := by
  intro s t h b hne
  obtain hmem | ⟨addr, size, data, hw, hmem⟩ := step_mem h
  · exact absurd (by rw [hmem]) hne
  · refine ⟨addr, size, data, hw, ?_⟩
    by_contra hout
    exact hne (by rw [hmem, memByte_memSetList_outside _ _ (by rw [laneBytes_length]; omega)])

/-! ### The buffer race (20_memory.md R77) -/

/-- Every access has a byte. -/
theorem accessBytes_pos (size : Access) : 0 < accessBytes size := by
  cases size <;> decide

/-- A write touches a buffer exactly where they have a byte in common. -/
theorem touches_iff {addr n baddr blen : Nat} (hn : 0 < n) :
    touches addr n baddr blen = true ↔ ∃ b, addr ≤ b ∧ b < addr + n ∧ baddr ≤ b ∧ b < baddr + blen := by
  simp only [touches, Bool.and_eq_true, decide_eq_true_eq]
  constructor
  · rintro ⟨⟨hlen, hlo⟩, hhi⟩
    exact ⟨max addr baddr, by omega⟩
  · rintro ⟨b, h1, h2, h3, h4⟩
    omega

/-- A write races exactly where BUSY = 1 and it touches the buffer of a latched COMPUTE. -/
theorem races_iff {addr : Word} {n : Nat} : races addr n s = true ↔
    s.busy = true ∧ ∃ w ri ro i x a len, s.latch = some (.compute w ri ro i x a len) ∧
      touches addr.toNat n a.toNat len.toNat = true := by
  constructor
  · intro h
    obtain ⟨w, ri, ro, i, x, a, len, hl⟩ := latch_of_races h
    simp only [races, hl, Bool.and_eq_true] at h
    obtain ⟨hb, ht⟩ := h
    exact ⟨hb, w, ri, ro, i, x, a, len, hl, ht⟩
  · rintro ⟨hb, w, ri, ro, i, x, a, len, hl, ht⟩
    simp only [races, hb, hl, ht, Bool.and_self]

/-- A raced COMPUTE ends with two free values in ACC and RESULT, refused or not (60_exceptions.md R186, log entry 6). -/
theorem performCompute_raced (w : Width) (ri ro : Bool) (i x a n : Word) (hr : s.raced = true) :
    ∃ k, s.draws ≤ k ∧ (performCompute w ri ro i x a n s).acc = Config.freeWord k ∧
      (performCompute w ri ro i x a n s).result = Config.freeWord (k + 1) := by
  rw [performCompute_eq w ri ro i x a n s _ rfl, hr]
  exact ⟨_, Nat.le_add_right _ _, rfl, rfl⟩

/-- Settles O44: the race check is a common byte; a raced COMPUTE draws its results, and any other write only stores. -/
theorem bufferRaceLeavesResultsFree : Obligations.BufferRaceLeavesResultsFree := by
  refine ⟨fun s addr size data w ri ro i x a n hb hl ho hin hcommon => ?_, fun s addr size data ho hin hfree => ?_⟩
  · have hrace : races addr (accessBytes size) s = true :=
      races_iff.mpr ⟨hb, w, ri, ro, i, x, a, n, hl, (touches_iff (accessBytes_pos size)).mpr hcommon⟩
    rw [hostWrite_memory data ho hin, if_pos hrace]
    refine ⟨_, rfl, rfl, ?_⟩
    rw [engineTurn_compute (by simpa using hb) (by simpa using hl)]
    exact performCompute_raced w ri ro i x a n (by simp)
  · have hrace : ¬ races addr (accessBytes size) s = true := fun h => by
      obtain ⟨hb, w, ri, ro, i, x, a, n, hl, ht⟩ := races_iff.mp h
      obtain ⟨b, hlo, hhi, hba, hbn⟩ := (touches_iff (accessBytes_pos size)).mp ht
      exact absurd (hfree hb w ri ro i x a n hl b hlo hhi hba) (Nat.not_le.mpr hbn)
    rw [hostWrite_memory data ho hin, if_neg hrace]
    rfl

/-! ### The operand registers at their bus addresses (10_state.md R21, R22; 20_memory.md R61) -/

/-- A word write at a register's bus address is the write of that register. -/
theorem hostWrite_reg (r : Reg) (data : BitVec 64) (s : State) :
    hostWrite (windowAddr s.platform (regOffset r)) .word data s = writeReg r (data.setWidth 32) s := by
  rw [hostWrite_window (regOffset_aligned r), slotOf_regOffset]; rfl

/-- A word read at a register's bus address is the read of that register, recorded. -/
theorem hostRead_reg (r : Reg) (s : State) :
    hostRead (windowAddr s.platform (regOffset r)) .word s =
      recordRead ⟨windowAddr s.platform (regOffset r), .word, some (readReg r s).1⟩ (readReg r s).2 := by
  rw [hostRead_window (regOffset_aligned r), slotOf_regOffset]; rfl

/-- A host write of a register other than CMD, read back: the read is recorded and nothing else changes where the register reads
exactly. -/
theorem hostRead_of_writeReg {r : Reg} {v u : Word} (hr : r ≠ .cmd) (h : writeReg r v s = .next t) (hread : readReg r t = (u, t)) :
    hostRead (windowAddr s.platform (regOffset r)) .word t =
      { t with reads := ⟨windowAddr s.platform (regOffset r), .word, some u⟩ :: s.reads } := by
  obtain ⟨hplatform, hreads⟩ : t.platform = s.platform ∧ t.reads = s.reads := by
    obtain ⟨_, _, _, _, _, _, _, _, _, _, rfl⟩ := writeReg_frame hr h
    exact ⟨rfl, rfl⟩
  rw [← hplatform, ← hreads, hostRead_reg, hread]
  rfl

/-- A word operand register holds the word written to it. -/
theorem readReg_of_writeReg {r : Reg} {v : Word} (hr : r ∈ wordOperands) (h : writeReg r v s = .next t) : readReg r t = (v, t) := by
  simp only [wordOperands, List.mem_cons, List.not_mem_nil, or_false] at hr
  obtain rfl | rfl | rfl | rfl | rfl | rfl := hr
  all_goals cases h; rfl

/-- CFG reads back the low four bits of the word written to it (10_state.md R22). -/
theorem cfgWord_writeCfg (v : Word) (s : State) : cfgWord (writeCfg v s) = v &&& 0x0000000F := by
  have hfields : BitVec.ofBool (v.getLsbD 3) ++ BitVec.ofBool (v.getLsbD 2) ++ v.extractLsb' 0 2 = v.extractLsb' 0 4 := by
    ext k hk
    simp only [BitVec.getElem_append]
    obtain rfl | rfl | rfl | rfl : k = 0 ∨ k = 1 ∨ k = 2 ∨ k = 3 := by omega
    all_goals simp
  have hmask : (v &&& 0x0000000F).toNat = v.toNat % 2 ^ 4 := by
    rw [BitVec.toNat_and]; exact Nat.and_two_pow_sub_one_eq_mod _ 4
  apply BitVec.eq_of_toNat_eq
  rw [hmask, cfgWord, writeCfg_width, writeCfg_refin, writeCfg_refout, hfields, BitVec.toNat_setWidth_of_le (by decide),
    BitVec.extractLsb'_toNat, Nat.shiftRight_zero]

/-- Settles O32: each write is its register's own, and what it stored is what the read records. -/
theorem operandRegistersReadBack : Obligations.OperandRegistersReadBack := by
  rintro s data _ rfl
  refine ⟨⟨hostWrite_reg .cfg data s, fun t h => ?_⟩, fun r hr t h => ?_, hostWrite_reg .poly data s, hostWrite_reg .init data s,
    hostWrite_reg .xorout data s, hostWrite_reg .daddr data s, hostWrite_reg .dlen data s, hostWrite_reg .opa data s⟩
  · rw [hostWrite_reg] at h
    refine hostRead_of_writeReg (by decide) h ?_
    cases h
    rw [readReg, cfgWord_writeCfg]
  · rw [hostWrite_reg] at h
    have hcmd : r ≠ .cmd := by rintro rfl; revert hr; decide
    exact hostRead_of_writeReg hcmd h (readReg_of_writeReg hr h)

/-! ### Accesses that the window refuses (20_memory.md R62) -/

/-- Another size or an unaligned offset is not the access that the window allows. -/
theorem wordAccess_eq_false {off : BitVec 11} {size : Access} (h : size ≠ .word ∨ off.toNat % 4 ≠ 0) :
    wordAccess off size = false := by
  obtain h | h := h <;> simp [wordAccess, h]

/-- Settles O37: the offset is in the window, and the access is not a word access. -/
theorem badHostAccessIsRecorded : Obligations.BadHostAccessIsRecorded := by
  intro s off size data h
  have hbad := wordAccess_eq_false h
  constructor
  · simp only [hostWrite, windowOffset_windowAddr, hbad, Bool.false_eq_true, if_false, recordFault]
  · simp only [hostRead, windowOffset_windowAddr, hbad, Bool.false_eq_true, if_false, recordFault, recordRead]

end Sys2Proof.Machine
end

section
/-! PROOFS. The command word (30_encoding.md R81 to R89): its fields as numbers, which words are a command's, and the assembler. -/

namespace Sys2Proof

open Sys2Proof.Machine

variable {v : Word} {i : Instr} {n : Nat}

/-! ### The fields of a word as numbers -/

/-- OP as a number (30_encoding.md R81). -/
theorem opField_toNat (v : Word) : (opField v).toNat = v.toNat % 16 := by
  rw [opField, BitVec.extractLsb'_toNat, Nat.shiftRight_zero]

/-- N as a number (30_encoding.md R81). -/
theorem countField_toNat (v : Word) : (countField v).toNat = v.toNat / 256 % 64 := by
  rw [countField, BitVec.extractLsb'_toNat, Nat.shiftRight_eq_div_pow]

/-- A word that is the sum of its OP and its N has clear reserved bits (30_encoding.md R81). -/
theorem reservedClear_of_toNat (h : v.toNat = v.toNat % 16 + 256 * (v.toNat / 256 % 64)) : reservedClear v = true := by
  simp only [reservedClear, Bool.and_eq_true, beq_iff_eq]
  constructor <;> apply BitVec.eq_of_toNat_eq <;>
    simp only [BitVec.extractLsb'_toNat, Nat.shiftRight_eq_div_pow, BitVec.ofNat_eq_ofNat, BitVec.toNat_ofNat] <;> omega

/-- The word of REFLECT as a number (30_encoding.md R86). -/
theorem encode_reflect_toNat (hn : n < 64) : (encode (.reflect n)).toNat = 3 + 256 * n := by
  have hcount : (BitVec.ofNat 32 n).toNat = n := by rw [BitVec.toNat_ofNat]; omega
  have hshift : (BitVec.ofNat 32 n <<< 8).toNat = n <<< 8 := by
    rw [BitVec.toNat_shiftLeft, hcount, Nat.shiftLeft_eq]; omega
  have hor : 3 ||| n <<< 8 = n <<< 8 + 3 := by
    rw [Nat.or_comm, Nat.shiftLeft_add_eq_or_of_lt (by decide)]
  rw [encode, BitVec.toNat_or, hshift]
  change 3 ||| n <<< 8 = _
  rw [hor, Nat.shiftLeft_eq]
  omega

/-! ### Which words are a command's -/

/-- REFLECT has a word exactly where its count fits the field (30_encoding.md R86, R89). -/
theorem wellFormed_reflect_iff : (Instr.reflect n).wellFormed = true ↔ n < 64 := decide_eq_true_iff

/-- The conditions under which a word decodes to a command (30_encoding.md R88). -/
theorem fields_of_decode (h : decode v = .command i) : reservedClear v = true ∧
    ((opField v = 1 ∧ countField v = 0 ∧ i = .gentab) ∨ (opField v = 2 ∧ countField v = 0 ∧ i = .compute) ∨
      (opField v = 3 ∧ i = .reflect (countField v).toNat)) := by
  unfold decode at h
  split at h
  · rename_i hr
    refine ⟨hr, ?_⟩
    split at h
    · rename_i hop
      split at h <;> cases h
      exact .inl ⟨BitVec.eq_of_toNat_eq hop, ‹_›, rfl⟩
    · rename_i hop
      split at h <;> cases h
      exact .inr (.inl ⟨BitVec.eq_of_toNat_eq hop, ‹_›, rfl⟩)
    · rename_i hop
      cases h
      exact .inr (.inr ⟨BitVec.eq_of_toNat_eq hop, rfl⟩)
    · cases h
  · cases h

/-- The word of REFLECT by its fields (30_encoding.md R86, R88). -/
theorem decode_reflect (hr : reservedClear v = true) (hop : opField v = 3) :
    decode v = .command (.reflect (countField v).toNat) := by
  simp [decode, hr, hop]

/-- The decoder reads back a command that has a word (30_encoding.md R88). -/
theorem decode_encode (h : i.wellFormed = true) : decode (encode i) = .command i := by
  cases i with
  | gentab => rfl
  | compute => rfl
  | reflect n =>
    have hn : n < 64 := wellFormed_reflect_iff.mp h
    have hv := encode_reflect_toNat hn
    have hr : reservedClear (encode (.reflect n)) = true := reservedClear_of_toNat (by omega)
    have hop : opField (encode (.reflect n)) = 3 := by
      apply BitVec.eq_of_toNat_eq
      rw [opField_toNat, hv]
      change _ = 3
      omega
    have hcount : (countField (encode (.reflect n))).toNat = n := by rw [countField_toNat, hv]; omega
    rw [decode_reflect hr hop, hcount]

/-- A decoded command can be assembled, and its word is the one decoded (30_encoding.md R83, R89). -/
theorem encode_of_decode (h : decode v = .command i) : encode i = v ∧ i.wellFormed = true := by
  obtain ⟨hr, hfields⟩ := fields_of_decode h
  have hv := toNat_of_reservedClear hr
  obtain ⟨hop, hcount, rfl⟩ | ⟨hop, hcount, rfl⟩ | ⟨hop, rfl⟩ := hfields
  · rw [hop, hcount] at hv
    exact ⟨BitVec.eq_of_toNat_eq hv.symm, rfl⟩
  · rw [hop, hcount] at hv
    exact ⟨BitVec.eq_of_toNat_eq hv.symm, rfl⟩
  · rw [hop] at hv
    have hn : (countField v).toNat < 64 := (countField v).isLt
    exact ⟨BitVec.eq_of_toNat_eq ((encode_reflect_toNat hn).trans hv.symm), wellFormed_reflect_iff.mpr hn⟩

/-- Settles O1: the fields of a command's word, read as numbers, are its OP and its count. -/
theorem decodeOfEncodeIsTheCommand : Obligations.DecodeOfEncodeIsTheCommand :=
  fun _ h => decode_encode h

/-- Settles O2: a decoded word is the sum of its OP and its count, and so is the command's own word. -/
theorem encodeOfDecodeIsTheWord : Obligations.EncodeOfDecodeIsTheWord :=
  fun _ _ h => encode_of_decode h

/-- A word means a command exactly where it is the command's word (30_encoding.md R83). -/
theorem decode_eq_command_iff (h : i.wellFormed = true) : decode v = .command i ↔ v = encode i := by
  constructor
  · intro hd
    obtain ⟨hv, -⟩ := encode_of_decode hd
    exact hv.symm
  · rintro rfl
    exact decode_encode h

/-- The fixed bits of REFLECT's row are the reserved bits and OP (30_encoding.md R83). -/
theorem fields_of_reflectRow (h : v &&& 0xFFFFC0FF = 0x00000003) : reservedClear v = true ∧ opField v = 3 := by
  have hfield (start len : Nat) (hmask : (0xFFFFC0FF : Word).extractLsb' start len = BitVec.allOnes len) :
      v.extractLsb' start len = (0x00000003 : Word).extractLsb' start len := by
    rw [← h, BitVec.extractLsb'_and, hmask, BitVec.and_allOnes]
  simp only [reservedClear, opField, hfield 14 18 (by decide), hfield 4 4 (by decide), hfield 0 4 (by decide)]
  decide

/-- REFLECT's row by match and mask (30_encoding.md R83). -/
theorem decode_eq_reflect_iff :
    decode v = .command (.reflect n) ↔ v &&& 0xFFFFC0FF = 0x00000003 ∧ v.toNat / 256 % 64 = n := by
  constructor
  · intro hd
    obtain ⟨rfl, hwf⟩ := encode_of_decode hd
    refine ⟨Laws.RowWord.reflect n hwf, ?_⟩
    have hn : n < 64 := wellFormed_reflect_iff.mp hwf
    rw [encode_reflect_toNat hn]
    omega
  · rintro ⟨hrow, rfl⟩
    obtain ⟨hr, hop⟩ := fields_of_reflectRow hrow
    rw [decode_reflect hr hop, countField_toNat]

/-- Settles O3: the rows of GENTAB and COMPUTE fix every bit, and REFLECT's fixes all but N. -/
theorem commandRowsByMatchAndMask : Obligations.CommandRowsByMatchAndMask := by
  intro v
  have hall : v &&& 0xFFFFFFFF = v := BitVec.and_allOnes
  rw [hall]
  exact ⟨decode_eq_command_iff rfl, decode_eq_command_iff rfl, fun _ => decode_eq_reflect_iff⟩

/-! ### Illegal words -/

/-- A word decodes to a command or is illegal. -/
theorem decode_illegal_iff : (∃ why, decode v = .illegal why) ↔ ¬ ∃ i, decode v = .command i := by
  cases decode v <;> simp

/-- A word that decodes to a command is in one of the three rows, and conversely (30_encoding.md R83). -/
theorem decode_command_iff :
    (∃ i, decode v = .command i) ↔ (v = 0x00000001 ∨ v = 0x00000002 ∨ v &&& 0xFFFFC0FF = 0x00000003) := by
  constructor
  · rintro ⟨i, hd⟩
    cases i with
    | gentab => exact .inl ((decode_eq_command_iff rfl).mp hd)
    | compute => exact .inr (.inl ((decode_eq_command_iff rfl).mp hd))
    | reflect n => exact .inr (.inr (decode_eq_reflect_iff.mp hd).left)
  · rintro (rfl | rfl | hrow)
    · exact ⟨.gentab, rfl⟩
    · exact ⟨.compute, rfl⟩
    · exact ⟨_, decode_eq_reflect_iff.mpr ⟨hrow, rfl⟩⟩

/-- None of the four conditions of 30_encoding.md R87 holds for a word that decodes to a command. -/
theorem not_illegalWord_of_decode (h : decode v = .command i) : illegalWord v = false := by
  obtain ⟨hr, hfields⟩ := fields_of_decode h
  simp only [reservedClear, Bool.and_eq_true, beq_iff_eq] at hr
  obtain ⟨hhigh, hmid⟩ := hr
  simp only [opField, countField] at hfields
  obtain ⟨hop, hcount, -⟩ | ⟨hop, hcount, -⟩ | ⟨hop, -⟩ := hfields
  · simp [illegalWord, hhigh, hmid, hop, hcount]
  · simp [illegalWord, hhigh, hmid, hop, hcount]
  · simp [illegalWord, hhigh, hmid, hop]

/-- The four conditions of 30_encoding.md R87 are what the decoder of R88 calls illegal. -/
theorem illegalWord_iff : illegalWord v = true ↔ ∃ why, decode v = .illegal why := by
  rw [decode_illegal_iff]
  constructor
  · rintro h ⟨i, hd⟩
    rw [not_illegalWord_of_decode hd] at h
    cases h
  · intro h
    by_contra hlegal
    obtain ⟨-, hd⟩ | ⟨-, hd⟩ | ⟨-, hd⟩ := decode_of_not_illegalWord (Bool.eq_false_iff.mpr hlegal) <;> exact h ⟨_, hd⟩

/-- An illegal word written to CMD while BUSY = 0 is reported and nothing else (60_exceptions.md R172). -/
theorem issue_illegal {s : State} (hb : s.busy = false) (h : illegalWord v = true) : issue v s = .next (raiseErr errIllegal s) := by
  obtain ⟨why, hd⟩ := illegalWord_iff.mp h
  simp [issue, hb, hd]

/-- Settles O4: illegal is what decodes to no command, and the commands' words are the three rows. -/
theorem illegalWordsAreReported : Obligations.IllegalWordsAreReported := by
  refine ⟨fun v => ⟨illegalWord_iff, ?_⟩, fun v s h hb => issue_illegal hb h, by decide⟩
  rw [illegalWord_iff, decode_illegal_iff, decode_command_iff]

/-! ### The assembler -/

/-- A command that has a word assembles to one write of it to CMD (30_encoding.md R89). -/
theorem scriptCommand_eq (p : Platform) (h : i.wellFormed = true) :
    scriptCommand p i = some [writeAction p .cmd (encode i)] := by
  simp [scriptCommand, assemble, h, scriptWr]

/-- The assembler refuses a count that does not fit the field, and with it the line that it stands in (30_encoding.md R89). -/
theorem assemble_reflect_refused (hn : 63 < n) : assemble (.reflect n) = none := by
  simp [assemble, Instr.wellFormed, Nat.not_lt.mpr hn]

/-- Settles O54: what the assembler accepts and refuses, and the number of REFLECT's word. -/
theorem mnemonicsAssembleToOneWrite : Obligations.MnemonicsAssembleToOneWrite := by
  refine ⟨fun p i h => scriptCommand_eq p h, ⟨rfl, rfl, fun n hn => ?_⟩, fun p value n hn => ?_⟩
  · have hlt : n < 64 := Nat.lt_succ_of_le hn
    exact ⟨encode_reflect_toNat hlt, wellFormed_reflect_iff.mpr hlt⟩
  · have hcommand : scriptCommand p (.reflect n) = none := by rw [scriptCommand, assemble_reflect_refused hn]; rfl
    exact ⟨assemble_reflect_refused hn, hcommand, by rw [scriptRefl, hcommand]; rfl⟩

end Sys2Proof
end

section
/-! PROOFS. Runs of host-script lines: the host's next action, the WAIT loop under any schedule, SETUP and REFL
(30_encoding.md R90 to R92; 20_memory.md R71, R72; 70_reset_and_hazards.md R209). -/

namespace Sys2Proof.Machine

variable {s t : State}

/-! ### One move of a run -/

/-- `s` with the actions `acts` and the moves `ms` still to come. -/
def withRun (acts : List HostAction) (ms : List Move) (s : State) : State := { s with program := acts, schedule := ms }

/-- The Host's step takes its next action with the move and the action taken off. -/
theorem step_host {a : HostAction} {acts : List HostAction} (hm : nextMove s = .host) (hp : s.program = a :: acts) :
    step s = hostStep a (withRun acts s.schedule.tail s) := by
  rw [step_action (nextAction_eq_some.mpr ⟨hm, acts, hp⟩), takeAction, takeMove, hp, List.tail_cons, withRun]

/-- `WR` is the write of its register (30_encoding.md R90). -/
theorem hostStep_writeAction (r : Reg) (v : Word) (s : State) : hostStep (writeAction s.platform r v) s = writeReg r v s := by
  rw [writeAction, hostStep, hostWrite_reg, BitVec.setWidth_setWidth_of_le v (by decide), BitVec.setWidth_eq]

/-- A Host step whose next action is a `WR`. -/
theorem step_wr {r : Reg} {v : Word} {acts : List HostAction} (hm : nextMove s = .host)
    (hp : s.program = writeAction s.platform r v :: acts) :
    step s = writeReg r v (withRun acts s.schedule.tail s) := by
  rw [step_host hm hp]
  exact hostStep_writeAction r v (withRun acts s.schedule.tail s)

/-- The schedule's head moves. -/
theorem nextMove_cons {m : Move} {ms : List Move} (h : s.schedule = m :: ms) : nextMove s = m := by
  rw [nextMove, h]

/-- After the schedule's end the Engine moves while BUSY = 1, the Host otherwise (70_reset_and_hazards.md R209; log entry 2). -/
theorem nextMove_nil (h : s.schedule = []) : nextMove s = if s.busy then .engine else .host := by
  rw [nextMove, h]

/-- A run of one step. -/
theorem runSteps_one (s : State) : runSteps 1 s = step s := by
  rw [runSteps]
  cases step s <;> rfl

/-- With BUSY = 0 the Engine has no step (10_state.md R41). -/
theorem engineTurn_idle (hb : s.busy = false) : engineTurn s = s := by
  simp [engineTurn, hb]

/-- The Engine's turn leaves the platform, the program and the schedule alone (10_state.md R41). -/
theorem EngineEffect.run (h : EngineEffect s t) :
    t.platform = s.platform ∧ t.program = s.program ∧ t.schedule = s.schedule := by
  cases h with
  | idle => exact ⟨rfl, rfl, rfl⟩
  | gentab => exact ⟨rfl, rfl, rfl⟩
  | compute w ri ro i x a n =>
    obtain ⟨e, acc, res, d, hp⟩ := performCompute_frame w ri ro i x a n s
    rw [hp]
    exact ⟨rfl, rfl, rfl⟩
  | reflect => exact ⟨rfl, rfl, rfl⟩

/-! ### SETUP -/

/-- A run that begins with the Host's `WR`. -/
theorem runSteps_wr {k : Nat} {r : Reg} {v : Word} {acts : List HostAction} {ms : List Move} {o : Host.Outcome State Fault Refusal}
    (hs : s.schedule = .host :: ms) (hp : s.program = writeAction s.platform r v :: acts)
    (hw : writeReg r v (withRun acts ms s) = .next t) (ho : runSteps k t = o) : runSteps (k + 1) s = o := by
  refine (runSteps_next ((step_wr (nextMove_cons hs) hp).trans ?_)).trans ho
  rw [hs, List.tail_cons, hw]

/-- Settles O40: four Host steps, each the write of its register. -/
theorem setupScriptProgramsTheVariant : Obligations.SetupScriptProgramsTheVariant := by
  intro s c p i x rest hs
  refine runSteps_wr hs rfl rfl ?_
  refine runSteps_wr rfl rfl rfl ?_
  refine runSteps_wr rfl rfl rfl ?_
  exact runSteps_wr rfl rfl rfl rfl

/-! ### The WAIT loop -/

/-- One turn of WAIT: the word of STATUS is read, and WAIT is over where BUSY = 0 (30_encoding.md R91). -/
theorem hostWait_status (s : State) : hostWait s =
    { s with
      reads := ⟨windowAddr s.platform (regOffset .status), .word, some (statusWord s)⟩ :: s.reads
      program := if s.busy then .wait :: s.program else s.program } := by
  rw [hostWait, hostRead_reg]
  cases hb : s.busy <;> simp [recordRead, readReg, hb]

/-- `s` after one turn of WAIT, with `rest` to come after WAIT and the moves `ms` left. -/
def polled (s : State) (rest : List HostAction) (ms : List Move) : State :=
  { s with
    reads := ⟨windowAddr s.platform (regOffset .status), .word, some (statusWord s)⟩ :: s.reads
    program := if s.busy then .wait :: rest else rest
    schedule := ms }

/-- A Host step in WAIT is one turn of it. -/
theorem step_wait {rest : List HostAction} (hm : nextMove s = .host) (hp : s.program = .wait :: rest) :
    step s = .next (polled s rest s.schedule.tail) := by
  rw [step_host hm hp, hostStep, hostWait_status]
  rfl

/-- A turn of WAIT with BUSY = 1 leaves WAIT the next action. -/
theorem polled_busy_program (hb : s.busy = true) (rest : List HostAction) (ms : List Move) :
    (polled s rest ms).program = .wait :: rest := by
  rw [polled, hb]; rfl

/-- The host is past its WAIT in `t`: BUSY = 0, and the last read was the one of STATUS that showed it. -/
structure WaitOver (rest : List HostAction) (t : State) : Prop where
  program : t.program = rest
  idle : t.busy = false
  read : t.reads.head? = some ⟨windowAddr t.platform (regOffset .status), .word, some (statusWord t)⟩

/-- A turn of WAIT with BUSY = 0 is the last. -/
theorem waitOver_polled (hb : s.busy = false) (rest : List HostAction) (ms : List Move) : WaitOver rest (polled s rest ms) where
  program := by rw [polled, hb]; rfl
  idle := hb
  read := rfl

/-- What a turn of WAIT and the Engine's turn keep, of states whose command the Engine completes: `I` does not speak of the records
of the run. -/
structure KeptByWaiting (I : State → Prop) : Prop where
  records : ∀ s rs p ms, I s → I { s with reads := rs, program := p, schedule := ms }
  engine : ∀ s, I s → I (engineTurn s)
  completes : ∀ s, I s → (engineTurn s).busy = false

/-- Some run from `s` takes the host past its WAIT, in a state with `I` and with a part of the schedule left. -/
def WaitEndsWith (I : State → Prop) (rest : List HostAction) (s : State) : Prop :=
  ∃ k t, runSteps k s = .next t ∧ I t ∧ WaitOver rest t ∧ t.schedule <:+ s.schedule

variable {I : State → Prop} {rest : List HostAction}

/-- One step more before the run. -/
theorem WaitEndsWith.of_step (h : step s = .next t) (hs : t.schedule = s.schedule.tail) (ht : WaitEndsWith I rest t) :
    WaitEndsWith I rest s := by
  obtain ⟨k, u, hrun, hu, hover, hsuffix⟩ := ht
  rw [hs] at hsuffix
  exact ⟨k + 1, u, (runSteps_next h).trans hrun, hu, hover, hsuffix.trans (List.tail_suffix _)⟩

/-- The Engine's step before the run. -/
theorem WaitEndsWith.of_engine (hm : nextMove s = .engine) (ht : WaitEndsWith I rest (engineTurn (takeMove s))) :
    WaitEndsWith I rest s := by
  obtain ⟨-, -, hs⟩ := (engineTurn_effect (takeMove s)).run
  exact .of_step (step_engine hm) hs ht

/-- The last turn of WAIT is its only one. -/
theorem WaitEndsWith.last (hI : KeptByWaiting I) (h : I s) (hp : s.program = .wait :: rest) (hb : s.busy = false)
    (hm : nextMove s = .host) : WaitEndsWith I rest s :=
  ⟨1, _, (runSteps_one s).trans (step_wait hm hp), hI.records s _ _ _ h, waitOver_polled hb rest _, List.tail_suffix _⟩

/-- WAIT ends under every schedule, with what its turns, the Engine and the schedule's resets keep. -/
theorem wait_ends {ms : List Move} (hI : KeptByWaiting I) (hp : s.program = .wait :: rest) (h : I s) (hs : s.schedule = ms)
    (hreset : .reset ∈ ms → ∀ u, I u → I (resetBlock u)) : WaitEndsWith I rest s := by
  have hI' {u : State} (hu : I u) : I (takeMove u) := hI.records u _ _ _ hu
  induction ms generalizing s with
  | nil =>
    cases hb : s.busy with
    | false => exact .last hI h hp hb (by rw [nextMove_nil hs, hb]; rfl)
    | true =>
      obtain ⟨-, hprogram, hschedule⟩ := (engineTurn_effect (takeMove s)).run
      have hidle := hI.completes _ (hI' h)
      have hm : nextMove (engineTurn (takeMove s)) = .host := by
        rw [nextMove_nil (by rw [hschedule, takeMove_schedule, hs]; rfl), hidle]; rfl
      exact .of_engine (by rw [nextMove_nil hs, hb]; rfl) (.last hI (hI.engine _ (hI' h)) (hprogram.trans hp) hidle hm)
  | cons m ms ih =>
    have hm := nextMove_cons hs
    have htail : s.schedule.tail = ms := by rw [hs, List.tail_cons]
    have ih {u : State} (hp : u.program = .wait :: rest) (h : I u) (hs : u.schedule = ms) : WaitEndsWith I rest u :=
      ih hp h hs fun hmem => hreset (List.mem_cons_of_mem m hmem)
    cases m with
    | host =>
      cases hb : s.busy with
      | false => exact .last hI h hp hb hm
      | true => exact .of_step (step_wait hm hp) rfl (ih (polled_busy_program hb rest _) (hI.records s _ _ _ h) htail)
    | engine =>
      obtain ⟨-, hprogram, hschedule⟩ := (engineTurn_effect (takeMove s)).run
      exact .of_engine hm (ih (hprogram.trans hp) (hI.engine _ (hI' h)) (hschedule.trans htail))
    | reset => exact .of_step (step_reset hm) rfl (ih hp (hreset List.mem_cons_self _ (hI' h)) htail)

/-- On a platform `p`, a command that runs is in the latch (10_state.md R40, R45). -/
def CommandLatched (p : Platform) (s : State) : Prop :=
  s.platform = p ∧ (s.busy = true → s.latch.isSome = true)

/-- The Engine completes a command that is in the latch. -/
theorem CommandLatched.engineTurn_busy {p : Platform} (h : CommandLatched p s) : (engineTurn s).busy = false := by
  obtain ⟨-, hlatch⟩ := h
  obtain ⟨he, hb | hl⟩ | hb := (engineTurn_effect s).busy
  · rw [he, hb]
  · rw [he]
    simpa [hl] using hlatch
  · exact hb

/-- Waiting keeps a running command in the latch. -/
theorem commandLatched_kept (p : Platform) : KeptByWaiting (CommandLatched p) where
  records _ _ _ _ h := h
  engine s h := by
    have hb := h.engineTurn_busy
    obtain ⟨hp, -⟩ := h
    obtain ⟨hplatform, -, -⟩ := (engineTurn_effect s).run
    exact ⟨hplatform.trans hp, fun hbusy => absurd (hb.symm.trans hbusy) Bool.false_ne_true⟩
  completes _ h := h.engineTurn_busy

/-- While the schedule has only the Host move and BUSY = 1, WAIT polls once for each move (70_reset_and_hazards.md R209). -/
theorem wait_polls {n : Nat} {ms : List Move} (hp : s.program = .wait :: rest) (hb : s.busy = true)
    (hs : s.schedule = List.replicate n .host ++ ms) :
    ∃ t, runSteps n s = .next t ∧ t.program = .wait :: rest ∧ t.busy = true ∧ t.schedule = ms ∧
      t.reads.length = s.reads.length + n := by
  induction n generalizing s with
  | zero => exact ⟨s, rfl, hp, hb, hs, rfl⟩
  | succ n ih =>
    have hhost : s.schedule = .host :: (List.replicate n .host ++ ms) := hs
    have htail : s.schedule.tail = List.replicate n .host ++ ms := by rw [hhost, List.tail_cons]
    obtain ⟨t, hrun, hprogram, hbusy, hschedule, hreads⟩ :=
      ih (s := polled s rest s.schedule.tail) (polled_busy_program hb rest _) hb htail
    refine ⟨t, (runSteps_next (step_wait (nextMove_cons hhost) hp)).trans hrun, hprogram, hbusy, hschedule, ?_⟩
    rw [hreads, polled, List.length_cons, Nat.add_right_comm, Nat.add_assoc]

/-- Settles O49: WAIT ends for a command in the latch, and polls on for as long as only the Host moves. -/
theorem waitEnds : Obligations.WaitEnds := by
  refine ⟨fun s rest hp hlatch => ?_, fun s n rest ms hp hb hs => wait_polls hp hb hs⟩
  have hreset (_ : .reset ∈ s.schedule) (u : State) (hu : CommandLatched s.platform u) :
      CommandLatched s.platform (resetBlock u) := by
    obtain ⟨hplatform, -⟩ := hu
    exact ⟨hplatform, fun hb => absurd hb Bool.false_ne_true⟩
  obtain ⟨k, t, hrun, ⟨hplatform, -⟩, hover, -⟩ := wait_ends (commandLatched_kept s.platform) hp ⟨rfl, hlatch⟩ rfl hreset
  refine ⟨k, t, hrun, hover.program, hover.idle, statusWord t, ?_, ?_⟩
  · rw [hover.read, hplatform]
  · rw [statusWord_busy, hover.idle]

/-! ### REFL -/

/-- With BUSY = 0 and no reset to come the host's next action is taken in the end, and nothing else happens before it. -/
theorem idle_action_runs {a : HostAction} {acts : List HostAction} {ms : List Move} (hb : s.busy = false)
    (hp : s.program = a :: acts) (hs : s.schedule = ms) (hr : .reset ∉ ms) :
    ∃ k ms', .reset ∉ ms' ∧ runSteps k s = hostStep a (withRun acts ms' s) := by
  induction ms generalizing s with
  | nil =>
    refine ⟨1, s.schedule.tail, by simp [hs], (runSteps_one s).trans (step_host ?_ hp)⟩
    rw [nextMove_nil hs, hb]; rfl
  | cons m ms ih =>
    have hm := nextMove_cons hs
    have htail : s.schedule.tail = ms := by rw [hs, List.tail_cons]
    have hr' : .reset ∉ ms := fun hmem => hr (List.mem_cons_of_mem m hmem)
    cases m with
    | host => exact ⟨1, s.schedule.tail, htail ▸ hr', (runSteps_one s).trans (step_host hm hp)⟩
    | engine =>
      obtain ⟨k, ms', hms', hrun⟩ := ih (s := takeMove s) hb hp htail hr'
      have hstep : step s = .next (takeMove s) := by rw [step_engine hm, engineTurn_idle (s := takeMove s) hb]
      exact ⟨k + 1, ms', hms', (runSteps_next hstep).trans hrun⟩
    | reset => exact absurd List.mem_cons_self hr

/-- With BUSY = 0 and no reset to come a `WR` at the head of the program is done in the end. -/
theorem idle_wr_runs {r : Reg} {v : Word} {acts : List HostAction} (hb : s.busy = false)
    (hp : s.program = writeAction s.platform r v :: acts) (hr : .reset ∉ s.schedule) :
    ∃ k ms, .reset ∉ ms ∧ runSteps k s = writeReg r v (withRun acts ms s) := by
  obtain ⟨k, ms, hms, hrun⟩ := idle_action_runs hb hp rfl hr
  exact ⟨k, ms, hms, hrun.trans (hostStep_writeAction r v (withRun acts ms s))⟩

/-- On a platform `p`, the REFLECT of `a` and `n` runs, or has ended with its result, without an error (40_reflect.md R102). -/
def ReflectUnderWay (p : Platform) (a : Word) (n : BitVec 6) (s : State) : Prop :=
  s.platform = p ∧ s.err = errNone ∧
    ((s.busy = true ∧ s.latch = some (.reflect a n)) ∨ (s.busy = false ∧ s.result = reflectBits a n.toNat))

/-- The Engine's turn ends a REFLECT that is under way. -/
theorem ReflectUnderWay.engineTurn {p : Platform} {a : Word} {n : BitVec 6} (h : ReflectUnderWay p a n s) :
    ReflectUnderWay p a n (engineTurn s) ∧ (engineTurn s).busy = false := by
  have hkept := h
  obtain ⟨hp, herr, ⟨hb, hl⟩ | ⟨hb, -⟩⟩ := h
  · rw [engineTurn_reflect hb hl]
    exact ⟨⟨hp, herr, .inr ⟨rfl, rfl⟩⟩, rfl⟩
  · rw [engineTurn_idle hb]
    exact ⟨hkept, hb⟩

/-- Waiting keeps a REFLECT under way. -/
theorem reflectUnderWay_kept (p : Platform) (a : Word) (n : BitVec 6) : KeptByWaiting (ReflectUnderWay p a n) where
  records _ _ _ _ h := h
  engine _ h := h.engineTurn.left
  completes _ h := h.engineTurn.right

/-- The host actions of a REFL line whose count fits the field (30_encoding.md R91). -/
theorem scriptRefl_eq (p : Platform) (value : Word) {n : Nat} (hn : n < 64) : scriptRefl p value n =
    some [writeAction p .opa value, writeAction p .cmd (encode (.reflect n)), .wait] := by
  rw [scriptRefl, scriptCommand_eq p (wellFormed_reflect_iff.mpr hn)]
  rfl

/-- REFLECT's word written to CMD while BUSY = 0 starts the REFLECT of OPA (40_reflect.md R102). -/
theorem issue_reflect {n : Nat} (hb : s.busy = false) (hn : n ≤ 32) :
    issue (encode (.reflect n)) s = .next (accept (reflectLatch n s) s) := by
  rw [issue_command hb (decode_encode (wellFormed_reflect_iff.mpr (by omega))), exec_reflect_accepts hb hn]

/-- With BUSY = 0 and no reset to come the two writes of a REFL line start its REFLECT (30_encoding.md R91). -/
theorem refl_starts {value : Word} {n : Nat} (hb : s.busy = false) (hn : n ≤ 32) (hr : .reset ∉ s.schedule)
    (hp : s.program = writeAction s.platform .opa value :: writeAction s.platform .cmd (encode (.reflect n)) :: rest) :
    ∃ k t, runSteps k s = .next t ∧ t.program = rest ∧ .reset ∉ t.schedule ∧
      ReflectUnderWay s.platform value (BitVec.ofNat 6 n) t := by
  obtain ⟨j, ms, hms, hopa⟩ := idle_wr_runs hb hp hr
  rw [writeReg] at hopa
  obtain ⟨k, ms', hms', hcmd⟩ := idle_wr_runs (r := .cmd) (v := encode (.reflect n)) (acts := rest)
    (s := withRun (writeAction s.platform .cmd (encode (.reflect n)) :: rest) ms { s with opa := value }) hb rfl hms
  exact ⟨j + k, _, (runSteps_add hopa).trans (hcmd.trans (issue_reflect hb hn)), rfl, hms', rfl, rfl, .inl ⟨rfl, rfl⟩⟩

/-- With BUSY = 0 and no reset to come a read of RESULT at the head of the program returns it in the end (10_state.md R36). -/
theorem idle_rd_result_runs (hb : s.busy = false) (hr : .reset ∉ s.schedule)
    (hp : s.program = scriptRd s.platform .result ++ rest) :
    ∃ k t, runSteps k s = .next t ∧ t.program = rest ∧ t.busy = false ∧ t.err = s.err ∧
      t.reads.head? = some ⟨windowAddr s.platform (regOffset .result), .word, some s.result⟩ := by
  obtain ⟨k, ms, -, hrun⟩ := idle_action_runs (acts := rest) hb hp rfl hr
  have hread := hostRead_reg .result (withRun rest ms s)
  rw [(readReg_idle (s := withRun rest ms s) hb).left] at hread
  exact ⟨k, _, hrun.trans (congrArg Host.Outcome.next hread), rfl, hb, rfl, rfl⟩

/-- Settles O14: OPA and CMD are written while BUSY = 0, WAIT ends with the REFLECT done, and RESULT is then read exactly. -/
theorem reflectScriptReadsItsResult : Obligations.ReflectScriptReadsItsResult := by
  intro s value n line rest hb hn hline hp hr
  obtain rfl := Option.some.inj ((scriptRefl_eq s.platform value (by omega)).symm.trans hline)
  obtain ⟨i, u, hstart, hprogram, hreset, hunder⟩ := refl_starts hb hn hr hp
  obtain ⟨j, w, hwait, ⟨hplatform, herr, hdone⟩, hover, hsuffix⟩ :=
    wait_ends (reflectUnderWay_kept ..) hprogram hunder rfl fun hmem => absurd hmem hreset
  have hresult : w.result = reflectBits value n := by
    obtain ⟨hbusy, -⟩ | ⟨-, hresult⟩ := hdone
    · exact absurd (hover.idle.symm.trans hbusy) Bool.false_ne_true
    · rw [hresult, BitVec.toNat_ofNat, Nat.mod_eq_of_lt (by omega)]
  obtain ⟨k, t, hread, hrest, hidle, herr', hvalue⟩ := idle_rd_result_runs (rest := rest) hover.idle
    (fun hmem => hreset (hsuffix.subset hmem)) (hover.program.trans (hplatform ▸ rfl))
  refine ⟨i + (j + k), t, ?_, hrest, hidle, herr'.trans herr, ?_⟩
  · rw [runSteps_add hstart, runSteps_add hwait, hread]
  · rw [hvalue, hplatform, hresult]

end Sys2Proof.Machine
end

section
/-! PROOFS. The bit-reversal unit and the REFLECT command, and what the Engine's turn leaves alone (40_reflect.md). -/

namespace Sys2Proof.Machine

variable {s t : State}

/-! ### The bits of a reflected word -/

/-- Position k of the loop adds the mirror of bit k, if that is set, to the bits set before it (40_reflect.md R100). -/
theorem reflectLoop_succ_getLsbD (v : Word) {n : Nat} (hn : n ≤ 32) {k : Nat} (hk : k < n) (j : Nat) :
    (reflectLoop v n (k + 1)).getLsbD j = ((reflectLoop v n k).getLsbD j || (v.getLsbD k && decide (n - 1 - k = j))) := by
  have hmirror : (1#32 <<< (n - 1 - k)).getLsbD j = (decide (n - 1 - k < 32) && decide (n - 1 - k = j)) :=
    BitVec.getLsbD_twoPow (n - 1 - k) j
  have hin : n - 1 - k < 32 := by omega
  rw [reflectLoop]
  split <;> simp [*]

/-- After `k` positions the loop has set the mirrors of the set bits below `k`, which lie from position n-k up (40_reflect.md R100). -/
theorem reflectLoop_getLsbD (v : Word) {n : Nat} (hn : n ≤ 32) {k : Nat} (hk : k ≤ n) (j : Nat) :
    (reflectLoop v n k).getLsbD j = (decide (n - k ≤ j ∧ j < n) && v.getLsbD (n - 1 - j)) := by
  induction k with
  | zero =>
    have hnone : ¬ (n ≤ j ∧ j < n) := by omega
    simp [reflectLoop, hnone]
  | succ k ih =>
    rw [reflectLoop_succ_getLsbD v hn hk, ih (by omega)]
    by_cases hj : n - 1 - k = j
    · have hbit : n - 1 - j = k := by omega
      have hnow : n - (k + 1) ≤ j ∧ j < n := by omega
      cases hv : v.getLsbD k <;> simp [hj, hbit, hnow, hv]
    · have hrange : (n - (k + 1) ≤ j ∧ j < n) ↔ (n - k ≤ j ∧ j < n) := by omega
      simp only [hj, hrange, decide_false, Bool.and_false, Bool.or_false]

/-- Bit j of `reflect(v, n)` is the mirrored bit of v below position n (40_reflect.md R100). -/
theorem reflectBits_getLsbD (v : Word) {n : Nat} (hn : n ≤ 32) (j : Nat) :
    (reflectBits v n).getLsbD j = (decide (j < n) && v.getLsbD (n - 1 - j)) := by
  simp [reflectBits, reflectLoop_getLsbD v hn le_rfl]

/-- Settles O10: the loop sets the mirror of each set bit and no other bit. -/
theorem reflectMirrorsTheLowBits : Obligations.ReflectMirrorsTheLowBits := by
  intro v n j hn _
  rw [reflectBits_getLsbD v hn]
  split <;> simp [*]

/-- `reflect(v, n)` depends on the low n bits of v alone. -/
theorem reflectBits_mod (v : Word) {n : Nat} (hn : n ≤ 32) :
    reflectBits v n = reflectBits (BitVec.ofNat 32 (v.toNat % 2 ^ n)) n := by
  refine BitVec.eq_of_getLsbD_eq fun j _ => ?_
  rw [reflectBits_getLsbD v hn, reflectBits_getLsbD _ hn]
  by_cases hj : j < n
  · have hlow : n - 1 - j < n := by omega
    have hbit : (BitVec.ofNat 32 (v.toNat % 2 ^ n)).getLsbD (n - 1 - j) = v.getLsbD (n - 1 - j) := by
      rw [BitVec.getLsbD_ofNat, Nat.testBit_mod_two_pow, BitVec.testBit_toNat]
      simp [hlow, hlow.trans_le hn]
    rw [hbit]
  · simp [hj]

/-- `reflect(v, 1)` is bit 0 of v. -/
theorem reflectBits_one (v : Word) : reflectBits v 1 = if v.getLsbD 0 then 1 else 0 := by
  rw [reflectBits, reflectLoop, reflectLoop]
  split <;> rfl

/-- `reflect(v, n)` has no bit from position n on. -/
theorem reflectBits_lt (v : Word) {n : Nat} (hn : n ≤ 32) : (reflectBits v n).toNat < 2 ^ n := by
  refine Nat.lt_pow_two_of_testBit _ fun j hj => ?_
  rw [BitVec.testBit_toNat, reflectBits_getLsbD v hn]
  simp [hj]

/-- Over all 32 bits `reflect` is the reversal of the word. -/
theorem reflectBits_full (v : Word) : reflectBits v 32 = v.reverse := by
  refine BitVec.eq_of_getLsbD_eq fun j _ => ?_
  rw [reflectBits_getLsbD v le_rfl, BitVec.getLsbD_reverse, BitVec.getMsbD_eq_getLsbD]

/-- Mirroring the low n bits twice gives them back. -/
theorem reflectBits_reflectBits {v : Word} {n : Nat} (hn : n ≤ 32) (hv : v.toNat < 2 ^ n) :
    reflectBits (reflectBits v n) n = v := by
  refine BitVec.eq_of_getLsbD_eq fun j _ => ?_
  rw [reflectBits_getLsbD _ hn, reflectBits_getLsbD v hn]
  by_cases hj : j < n
  · have hmirror : n - 1 - j < n := by omega
    have htwice : n - 1 - (n - 1 - j) = j := by omega
    simp [hj, hmirror, htwice]
  · have hhigh : v.getLsbD j = false :=
      Nat.testBit_lt_two_pow (hv.trans_le (Nat.pow_le_pow_right two_pos (not_lt.mp hj)))
    simp [hj, hhigh]

/-- Settles O11: the general cases compare bits; the counts 0 and 1 and the one literal word run the loop. -/
theorem reflectCornerCases : Obligations.ReflectCornerCases :=
  ⟨fun _ => rfl, fun v _ => reflectBits_mod v, fun v _ => reflectBits_lt v, reflectBits_one, reflectBits_full, by decide,
    fun _ _ => reflectBits_reflectBits⟩

/-! ### The REFLECT command -/

/-- Settles O12: acceptance latches OPA and the count, which fits the latch's 6 bits, and the Engine performs the latch. -/
theorem reflectCompletes : Obligations.ReflectCompletes := by
  intro s n hb hn
  have hcount : (BitVec.ofNat 6 n).toNat = n := by rw [BitVec.toNat_ofNat, Nat.mod_eq_of_lt (by omega)]
  refine ⟨_, exec_reflect_accepts hb hn, rfl, ?_⟩
  rw [engineTurn_reflect rfl rfl, performReflect, hcount]
  rfl

/-- REFLECT with a count above 32 is rejected (40_reflect.md R104). -/
theorem exec_reflect_rejects {n : Nat} (hb : s.busy = false) (hn : 32 < n) :
    exec (.reflect n) s = .next (raiseErr errArg s) := by
  simp [exec, execReflect, hb, hn]

/-- Settles O13: the count check raises ARG before anything is latched. -/
theorem reflectCountOutOfRange : Obligations.ReflectCountOutOfRange :=
  fun _ _ hb hn _ => exec_reflect_rejects hb hn

/-! ### What the Engine's turn leaves alone -/

/-- The Engine's turn reaches the table and its tag, the outcome registers, the latch and the draw count, and no other field
(10_state.md R41). -/
theorem EngineEffect.frame (h : EngineEffect s t) : ∃ tv tw tb e res acc d l b r, t = { s with
    tvalid := tv, twidth := tw, table := tb, err := e, result := res, acc := acc, draws := d, latch := l, busy := b, raced := r } := by
  cases h with
  | idle => exact ⟨_, _, _, _, _, _, _, _, _, _, rfl⟩
  | gentab => exact ⟨_, _, _, _, _, _, _, _, _, _, rfl⟩
  | compute w ri ro i x a n =>
    obtain ⟨e, acc, res, d, hp⟩ := performCompute_frame w ri ro i x a n s
    exact ⟨_, _, _, e, res, acc, d, _, _, _, hp⟩
  | reflect => exact ⟨_, _, _, _, _, _, _, _, _, _, rfl⟩

/-- The Engine's turn leaves OVR and everything outside the block alone (20_memory.md R60, 60_exceptions.md R177). -/
theorem EngineEffect.outside (h : EngineEffect s t) : SameSurroundings s t ∧ t.ovr = s.ovr := by
  obtain ⟨tv, tw, tb, e, res, acc, d, l, b, r, rfl⟩ := h.frame
  exact ⟨⟨fun _ => rfl, rfl, rfl, rfl, rfl, rfl⟩, rfl⟩

/-- The Engine's turn performs what is latched, or has no step. -/
theorem engineTurn_of_latch {l : Latch} (hl : s.latch = some l) : engineTurn s = s ∨ engineTurn s = perform l s := by
  cases hb : s.busy with
  | false => exact .inl (engineTurn_idle hb)
  | true => exact .inr (by simp only [engineTurn, hb, hl, if_true])

/-- Settles O30: the fields that no command reaches by the frame of the turn, the others by the latched command. -/
theorem engineFrame : Obligations.EngineFrame := by
  intro s
  have heffect := engineTurn_effect s
  obtain ⟨hsurroundings, hovr⟩ := heffect.outside
  refine ⟨heffect.sameOperands, hsurroundings, hovr, ?reflect, ?gentab, ?compute⟩
  case reflect =>
    intro a n hl
    obtain h | h := engineTurn_of_latch hl <;> rw [h] <;> exact ⟨rfl, rfl, rfl, rfl, rfl, rfl⟩
  case gentab =>
    intro w p hl
    obtain h | h := engineTurn_of_latch hl <;> rw [h] <;> exact ⟨rfl, rfl, rfl, rfl⟩
  case compute =>
    intro w ri ro i x a n hl
    obtain h | h := engineTurn_of_latch hl
    · rw [h]; exact ⟨rfl, rfl, rfl⟩
    · obtain ⟨e, acc, res, d, hp⟩ := performCompute_frame w ri ro i x a n s
      rw [h, perform, hp]; exact ⟨rfl, rfl, rfl⟩

end Sys2Proof.Machine
end

section
/-! PROOFS. The table generator and its use: the polynomial division is linear, a table lookup is eight of its iterations, and GENTAB
then COMPUTE divides the buffer (41_table_generator.md, 42_crc_compute.md R144, R148). -/

namespace Sys2Proof.Machine

variable {s : State} {w : Width} {p r : Word}

/-! ### Truncation and shifts -/

/-- A width is a whole byte at least and fits a word (10_state.md R23). -/
theorem widthBits_bounds (w : Width) : 8 ≤ widthBits w ∧ widthBits w ≤ 32 := by
  cases w <;> decide

/-- Truncation keeps exactly the low W bits (00_scope.md R11). -/
theorem truncW_getLsbD (w : Width) (v : Word) (i : Nat) : (truncW w v).getLsbD i = (decide (i < widthBits w) && v.getLsbD i) := by
  have hmask : widthMask w = (BitVec.allOnes (widthBits w)).setWidth 32 := by cases w <;> rfl
  by_cases hi : i < 32
  · simp [truncW, hmask, hi, Bool.and_comm]
  · simp [BitVec.getLsbD_of_ge _ i (not_lt.mp hi)]

/-- What truncation drops, a left shift never brings back. -/
theorem truncW_shiftLeft_truncW (w : Width) (v : Word) (k : Nat) : truncW w (truncW w v <<< k) = truncW w (v <<< k) := by
  refine BitVec.eq_of_getLsbD_eq fun i _ => ?_
  simp only [truncW_getLsbD, BitVec.getLsbD_shiftLeft]
  by_cases hi : i < widthBits w
  · have hlow : i - k < widthBits w := by omega
    simp [hlow]
  · simp [hi]

/-- A left shift by W leaves none of the low W bits. -/
theorem truncW_shiftLeft_widthBits (w : Width) (v : Word) : truncW w (v <<< widthBits w) = 0#32 := by
  refine BitVec.eq_of_getLsbD_eq fun i _ => ?_
  by_cases hi : i < widthBits w <;> simp [truncW_getLsbD, hi]

/-- A byte at the top of a W-bit value leaves it when shifted left by 8. -/
theorem truncW_topByte_shiftLeft (w : Width) (v : Word) : truncW w (v <<< (widthBits w - 8) <<< 8) = 0#32 := by
  have hw : widthBits w - 8 + 8 = widthBits w := Nat.sub_add_cancel (widthBits_bounds w).1
  rw [← BitVec.shiftLeft_add, hw, truncW_shiftLeft_widthBits]

/-! ### The polynomial division (41_table_generator.md R120) -/

/-- An iteration looks at the low W bits of the remainder alone. -/
theorem divideStep_truncW (w : Width) (p r : Word) : divideStep w p (truncW w r) = divideStep w p r := by
  have htop : widthBits w - 1 < widthBits w := by have := widthBits_bounds w; omega
  simp only [divideStep, truncW_getLsbD, truncW_shiftLeft_truncW, htop, decide_true, Bool.true_and]

/-- An iteration shifts, and subtracts the polynomial or nothing. -/
theorem divideStep_eq (w : Width) (p r : Word) :
    divideStep w p r = truncW w (r <<< 1) ^^^ if r.getLsbD (widthBits w - 1) then p else 0#32 := by
  unfold divideStep
  split <;> simp

/-- An iteration of the division is linear in the remainder. -/
theorem divideStep_xor (w : Width) (p a b : Word) : divideStep w p (a ^^^ b) = divideStep w p a ^^^ divideStep w p b := by
  have hsubtract (x y : Bool) : (if x ^^ y then p else 0#32) = (if x then p else 0#32) ^^^ if y then p else 0#32 := by
    cases x <;> cases y <;> simp
  simp only [divideStep_eq, BitVec.shiftLeft_xor_distrib, truncW_xor, BitVec.getLsbD_xor, hsubtract]
  ac_rfl

/-- With nothing to subtract, an iteration is a shift. -/
theorem divideStep_eq_shift (h : p = 0 ∨ r.getLsbD (widthBits w - 1) = false) : divideStep w p r = truncW w (r <<< 1) := by
  obtain rfl | h := h
  · simp [divideStep]
  · simp [divideStep, h]

/-- The division is linear in its dividend (41_table_generator.md R126). -/
theorem divideLoop_xor (w : Width) (p : Word) (k : Nat) (a b : Word) :
    divideLoop w p k (a ^^^ b) = divideLoop w p k a ^^^ divideLoop w p k b := by
  induction k generalizing a b with
  | zero => rfl
  | succ k ih => simp only [divideLoop, divideStep_xor, ih]

/-- The last iteration of a division set apart. -/
theorem divideLoop_succ (w : Width) (p : Word) (k : Nat) (r : Word) :
    divideLoop w p (k + 1) r = divideStep w p (divideLoop w p k r) := by
  induction k generalizing r with
  | zero => rfl
  | succ k ih => exact ih (divideStep w p r)

/-- Where the polynomial is zero, or no bit of the remainder gets to the top in time, the division is a shift. -/
theorem divideLoop_eq_shift {k : Nat} (hk : k ≤ widthBits w) (hr : truncW w r = r)
    (h : p = 0 ∨ ∀ j < k, r.getLsbD (widthBits w - 1 - j) = false) : divideLoop w p k r = truncW w (r <<< k) := by
  induction k generalizing r with
  | zero => simpa [divideLoop] using hr.symm
  | succ k ih =>
    have hstep : divideStep w p r = truncW w (r <<< 1) := divideStep_eq_shift (h.imp_right fun hz => hz 0 k.succ_pos)
    have hnext : p = 0 ∨ ∀ j < k, (truncW w (r <<< 1)).getLsbD (widthBits w - 1 - j) = false := by
      refine h.imp_right fun hz j hj => ?_
      have hbit : widthBits w - 1 - j - 1 = widthBits w - 1 - (j + 1) := by omega
      simp [truncW_getLsbD, hbit, hz (j + 1) (by omega)]
    rw [divideLoop, hstep, ih (by omega) (truncW_truncW w _) hnext, truncW_shiftLeft_truncW, ← BitVec.shiftLeft_add,
      Nat.add_comm]

/-! ### The properties of generated tables (41_table_generator.md R126) -/

/-- Table entries are linear in the index. -/
theorem genEntry_xor (w : Width) (p : Word) (a b : Byte) : genEntry w p (a ^^^ b) = genEntry w p a ^^^ genEntry w p b := by
  simp only [genEntry, BitVec.setWidth_xor, BitVec.shiftLeft_xor_distrib, truncW_xor, divideLoop_xor]

/-- Entry 0 is 0, by linearity. -/
theorem genEntry_zero (w : Width) (p : Word) : genEntry w p 0 = 0 := by
  simpa using genEntry_xor w p 0 0

/-- Entry 1 is the polynomial: seven iterations bring the one bit to the top, and the eighth exchanges it for the polynomial. -/
theorem genEntry_one (w : Width) (p : Word) : genEntry w p 1 = p := by
  have hfits : 7 ≤ widthBits w := (by decide : 7 ≤ 8).trans (widthBits_bounds w).1
  have hclear : ∀ j < 7, (truncW w ((1 : Byte).setWidth 32 <<< (widthBits w - 8))).getLsbD (widthBits w - 1 - j) = false := by
    cases w <;> decide
  have hseven : truncW w (truncW w ((1 : Byte).setWidth 32 <<< (widthBits w - 8)) <<< 7) = 1#32 <<< (widthBits w - 1) := by
    cases w <;> decide
  have heighth : divideStep w p (1#32 <<< (widthBits w - 1)) = p := by
    cases w <;> simp [divideStep_eq, truncW, widthMask, widthBits]
  rw [genEntry, divideLoop_succ, divideLoop_eq_shift hfits (truncW_truncW w _) (.inr hclear), hseven, heighth]

/-- The table of the zero polynomial is zero. -/
theorem genEntry_zero_poly (w : Width) (d : Byte) : genEntry w 0 d = 0 := by
  rw [genEntry, divideLoop_eq_shift (widthBits_bounds w).1 (truncW_truncW w _) (.inl rfl), truncW_shiftLeft_truncW]
  exact truncW_topByte_shiftLeft w _

/-- Settles O15: entry 0 and linearity from the linear division, entry 1 and the zero polynomial from its shifts. -/
theorem tableProperties : Obligations.TableProperties :=
  ⟨genEntry_zero, fun w p _ => genEntry_one w p, genEntry_zero_poly, genEntry_xor, fun w p q h => by simp only [genTable, h]⟩

/-! ### A table lookup is eight iterations of the division (42_crc_compute.md R144) -/

/-- The byte step of every width in one form (42_crc_compute.md R152). -/
theorem crcStep_eq (w : Width) (t : Byte → Word) (acc : Word) (b : Byte) :
    crcStep w t acc b = truncW w (acc <<< 8) ^^^ t (lowByte (acc >>> (widthBits w - 8)) ^^^ b) := by
  cases w with
  | w8 =>
    have hdrop : truncW .w8 (acc <<< 8) = 0#32 := truncW_shiftLeft_widthBits .w8 acc
    simp [crcStep, widthBits, hdrop]
  | w16 => rfl
  | w32 => rfl

/-- The division looks at the low W bits of its dividend alone, once it runs. -/
theorem divideLoop_truncW (w : Width) (p : Word) (k : Nat) (r : Word) :
    divideLoop w p (k + 1) (truncW w r) = divideLoop w p (k + 1) r := by
  simp only [divideLoop, divideStep_truncW]

/-- What is left of the accumulator when its top byte has been taken out. -/
def belowTopByte (w : Width) (acc : Word) : Word :=
  acc ^^^ ((lowByte (acc >>> (widthBits w - 8))).setWidth 32 <<< (widthBits w - 8))

/-- The top 8 of the W bits are clear with the top byte taken out. -/
theorem belowTopByte_top (w : Width) (acc : Word) {j : Nat} (hj : j < 8) :
    (belowTopByte w acc).getLsbD (widthBits w - 1 - j) = false := by
  obtain ⟨hlo, hhi⟩ := widthBits_bounds w
  have hin : widthBits w - 1 - j < 32 ∧ ¬ widthBits w - 1 - j < widthBits w - 8 ∧
      widthBits w - 1 - j - (widthBits w - 8) < 8 := by omega
  have hbit : widthBits w - 8 + (widthBits w - 1 - j - (widthBits w - 8)) = widthBits w - 1 - j := by omega
  obtain ⟨hin, habove, hbyte⟩ := hin
  have hword : widthBits w - 1 - j - (widthBits w - 8) < 32 := hbyte.trans (by decide)
  simp [belowTopByte, lowByte, hin, habove, hbyte, hbit, hword]

/-- Settles O26: the dividend is the accumulator below its top byte, which eight iterations only shift, and the top byte XORed with the
input, whose remainder is the table entry; the division is linear. -/
theorem tableStepIsTheDivision : Obligations.TableStepIsTheDivision := by
  intro w p acc b
  have hdividend : acc ^^^ (b.setWidth 32 <<< (widthBits w - 8)) =
      belowTopByte w acc ^^^ ((lowByte (acc >>> (widthBits w - 8)) ^^^ b).setWidth 32 <<< (widthBits w - 8)) := by
    rw [belowTopByte, BitVec.setWidth_xor, BitVec.shiftLeft_xor_distrib, BitVec.xor_assoc, ← BitVec.xor_assoc (_ <<< _),
      BitVec.xor_self, BitVec.zero_xor]
  have hbelow : divideLoop w (truncW w p) 8 (truncW w (belowTopByte w acc)) = truncW w (acc <<< 8) := by
    rw [divideLoop_eq_shift (widthBits_bounds w).1 (truncW_truncW w _) (.inr ?_), truncW_shiftLeft_truncW, belowTopByte,
      BitVec.shiftLeft_xor_distrib, truncW_xor, truncW_topByte_shiftLeft, BitVec.xor_zero]
    intro j hj
    rw [truncW_getLsbD, belowTopByte_top w acc hj, Bool.and_false]
  calc crcStep w (fun k => genEntry w (truncW w p) k) acc b
    _ = truncW w (acc <<< 8) ^^^ genEntry w (truncW w p) (lowByte (acc >>> (widthBits w - 8)) ^^^ b) := crcStep_eq ..
    _ = divideLoop w (truncW w p) 8 (truncW w (acc ^^^ (b.setWidth 32 <<< (widthBits w - 8)))) := by
      rw [hdividend, truncW_xor, divideLoop_xor, hbelow, genEntry]
    _ = bitwiseStep w (truncW w p) acc b := divideLoop_truncW ..

/-! ### The GENTAB command -/

/-- Settles O17: acceptance clears the tag and latches POLY, and the Engine performs the latch. -/
theorem gentabCompletes : Obligations.GentabCompletes := by
  intro s w hb hw
  refine ⟨_, exec_gentab_accepts hb (widthOfCode_eq_some.mpr hw), rfl, ?_⟩
  rw [engineTurn_gentab rfl rfl, hw]
  rfl

/-! ### GENTAB, then COMPUTE -/

/-- With a generated table the byte step looks up the generator's entries (41_table_generator.md R124). -/
theorem tableEntry_genTable {p : Word} (ht : s.table = genTable w p) : tableEntry w s = genEntry w (truncW w p) := by
  funext k
  simp only [tableEntry, ht, genTable_get]
  exact truncW_genEntry (truncW_truncW w p) k

/-- Over an admitted buffer the byte loop is a fold of the byte step (42_crc_compute.md R142). -/
theorem crcLoop_eq_foldl {pl : Platform} {m : List Host.Cell} {ri : Bool} {t : Byte → Word} {n a : Nat} {c : Word}
    (h : bufferAdmitted pl a n) :
    crcLoop pl m w ri t n a c = some ((bufferBytes m a n).foldl (fun x b => crcStep w t x (inputByte ri b)) c) := by
  induction n generalizing a c with
  | zero => rfl
  | succ n ih =>
    have hread : memRead pl m a = some (memByte m a) := memRead_eq_some.mpr ⟨h 0 n.succ_pos, rfl⟩
    have hrest : bufferAdmitted pl (a + 1) n := fun i hi => by
      simpa [Nat.add_assoc, Nat.add_comm 1] using h (i + 1) (Nat.succ_lt_succ hi)
    have hbytes : bufferBytes m a (n + 1) = memByte m a :: bufferBytes m (a + 1) n := by
      simp [bufferBytes, List.range_succ_eq_map, Function.comp_def, Nat.add_assoc, Nat.add_comm 1]
    rw [crcLoop, hread, hbytes, List.foldl_cons]
    exact ih hrest

/-- With a generated table the accumulator of an admitted buffer is its bit-by-bit division (42_crc_compute.md R144, R148). -/
theorem computeAcc_genTable {ri : Bool} {i a n : Word} (ht : s.table = genTable w p) (h : bufferAdmitted s.platform a.toNat n.toNat) :
    computeAcc w ri i a n s = some ((bufferBytes s.mem a.toNat n.toNat).foldl
      (fun x b => bitwiseStep w (truncW w p) x (inputByte ri b)) (truncW w i)) := by
  have hstep (x : Word) (b : Byte) : crcStep w (genEntry w (truncW w p)) x b = bitwiseStep w (truncW w p) x b :=
    tableStepIsTheDivision w p x b
  rw [computeAcc, crcLoop_eq_foldl h]
  simp only [tableEntry_genTable ht, hstep]

/-- A COMPUTE that is neither refused nor raced leaves the accumulator and its final value (42_crc_compute.md R147). -/
theorem performCompute_of_acc {ri ro : Bool} {i x a n acc : Word} (hr : s.raced = false) (hc : computeAcc w ri i a n s = some acc) :
    performCompute w ri ro i x a n s = complete (computeResult w ro x acc s) := by
  simp [performCompute, hr, hc]

/-- A buffer that ends within the address space passes the range check (20_memory.md R68). -/
theorem bufferInRange_of_fits {addr len : Word} (h : len = 0 ∨ addr.toNat + len.toNat ≤ 4294967296) :
    bufferInRange addr len = true := by
  obtain rfl | h := h
  · rfl
  · simp [bufferInRange, Config.addressSpace, h]

/-- COMPUTE over a generated table of its width, with an admitted buffer: the division of the buffer in ACC, its final value in RESULT. -/
theorem compute_over_genTable (hb : s.busy = false) (hw : s.width = widthCode w) (hm : tableMatches w s = true)
    (ht : s.table = genTable w p) (hrange : s.dlen = 0 ∨ s.daddr.toNat + s.dlen.toNat ≤ 4294967296)
    (hadmit : bufferAdmitted s.platform s.daddr.toNat s.dlen.toNat) :
    ∃ u, exec .compute s = .next u ∧ (engineTurn u).busy = false ∧ (engineTurn u).err = 0 ∧
      (engineTurn u).acc = (bufferBytes s.mem s.daddr.toNat s.dlen.toNat).foldl
        (fun a b => bitwiseStep w (truncW w p) a (inputByte s.refin b)) (truncW w s.init) ∧
      (engineTurn u).result = finalValue w s.refout s.xorout (engineTurn u).acc := by
  have haccept := exec_compute_accepts hb (widthOfCode_eq_some.mpr hw) hm (bufferInRange_of_fits hrange)
  have hacc := computeAcc_genTable (s := accept (computeLatch w s) s) (ri := s.refin) (i := s.init) ht hadmit
  refine ⟨_, haccept, ?_⟩
  rw [engineTurn_compute rfl rfl, performCompute_of_acc rfl hacc]
  exact ⟨rfl, rfl, rfl, rfl⟩

/-- Settles O27: GENTAB leaves the table and the tag that COMPUTE asks for, and each byte step over that table is a step of the
division. -/
theorem gentabThenComputeDividesTheBuffer : Obligations.GentabThenComputeDividesTheBuffer := by
  intro s w hb hw hrange hadmit
  obtain ⟨t, hgentab, -, hturn⟩ := gentabCompletes s w hb hw
  refine ⟨t, Exists.imp (fun _ hcompute => ⟨hgentab, hcompute⟩) ?_⟩
  rw [hturn]
  exact compute_over_genTable rfl hw (by simp [tableMatches, hw]) rfl hrange hadmit

end Sys2Proof.Machine
end

section
/-! PROOFS. The COMPUTE command: its byte step, its three endings, and what its results depend on (42_crc_compute.md). -/

namespace Sys2Proof.Machine

variable {s t : State} {w : Width} {ri ro : Bool} {i x a n : Word}

/-! ### The byte step and the table (42_crc_compute.md R144) -/

/-- Settles O21: a left shift by 8 leaves nothing of the low 8 bits, so the one form covers W = 8 too. -/
theorem byteStepHasOneForm : Obligations.ByteStepHasOneForm :=
  ⟨crcStep_eq, fun _ acc _ => ⟨truncW_shiftLeft_widthBits .w8 acc, rfl⟩⟩

/-- A table with every entry written is read the same in every state that holds it, whatever free values were drawn. -/
theorem tableEntry_eq_of_complete (ht : s.table = t.table) (hfull : ∀ k, (s.table.get k).isSome = true) :
    tableEntry w s = tableEntry w t := by
  funext k
  obtain ⟨v, hv⟩ := Option.isSome_iff_exists.mp (hfull k.toFin)
  have hv' : t.table.get k.toFin = some v := ht ▸ hv
  simp only [tableEntry, hv, hv']

/-- Over an all-zero table every lookup gives 0. -/
theorem tableEntry_of_zeroTable (ht : s.table = Vector.replicate 256 (some 0)) : tableEntry w s = fun _ => 0 := by
  funext k
  simp [tableEntry, ht, Vector.get_eq_getElem, truncW]

/-- The table of the zero polynomial is all zero (41_table_generator.md R126). -/
theorem genTable_zero (w : Width) : genTable w 0 = Vector.replicate 256 (some 0) := by
  refine Vector.ext fun k hk => ?_
  have hpoly : truncW w 0 = 0 := BitVec.zero_and
  rw [genTable, Vector.getElem_ofFn, Vector.getElem_replicate, hpoly, genEntry_zero_poly]

/-- With an all-zero 8-bit table the first byte already forgets the accumulator, and only an empty buffer keeps it. -/
theorem foldl_crcStep_zeroTable (ri : Bool) (c : Word) (bytes : List Byte) :
    bytes.foldl (fun y b => crcStep .w8 (fun _ => 0) y (inputByte ri b)) c = if bytes = [] then c else 0 := by
  induction bytes generalizing c with
  | nil => rfl
  | cons b bytes ih =>
    have hfirst : crcStep .w8 (fun _ => 0) c (inputByte ri b) = 0 := rfl
    rw [List.foldl_cons, hfirst, ih, ite_self, if_neg (List.cons_ne_nil b bytes)]

/-! ### The final value (42_crc_compute.md R145, R146) -/

/-- The final value takes the low W bits of XOROUT alone. -/
theorem finalValue_congr {y : Word} (h : truncW w x = truncW w y) (acc : Word) : finalValue w ro x acc = finalValue w ro y acc := by
  simp only [finalValue, h]

/-- Over the accumulator 0 the final value is XOROUT, reflected or not. -/
theorem finalValue_zero : finalValue w ro x 0 = if ro then reflectBits (truncW w x) (widthBits w) else truncW w x := by
  simp only [finalValue, BitVec.ofNat_eq_ofNat, BitVec.zero_xor]

/-- Over the initial accumulator the final value is INIT XOR XOROUT, reflected or not. -/
theorem finalValue_init : finalValue w ro x (truncW w i) =
    if ro then reflectBits (truncW w (i ^^^ x)) (widthBits w) else truncW w (i ^^^ x) := by
  simp only [finalValue, truncW_xor]

/-! ### The endings of a COMPUTE that is not raced -/

/-- A COMPUTE over an admitted buffer ends well, with the fold of the byte step over the buffer (42_crc_compute.md R142, R147). -/
theorem engineTurn_compute_admitted (hb : s.busy = true) (hr : s.raced = false) (hl : s.latch = some (.compute w ri ro i x a n))
    (h : bufferAdmitted s.platform a.toNat n.toNat) :
    engineTurn s = complete (computeResult w ro x ((bufferBytes s.mem a.toNat n.toNat).foldl
      (fun y b => crcStep w (tableEntry w s) y (inputByte ri b)) (truncW w i)) s) := by
  have hacc := crcLoop_eq_foldl (w := w) (m := s.mem) (ri := ri) (t := tableEntry w s) (c := truncW w i) h
  rw [engineTurn_compute hb hl, performCompute_of_acc hr hacc]

/-- A COMPUTE over a buffer that is not admitted ends with the bus error (42_crc_compute.md R150). -/
theorem engineTurn_compute_refused (hb : s.busy = true) (hr : s.raced = false) (hl : s.latch = some (.compute w ri ro i x a n))
    (h : ¬ bufferAdmitted s.platform a.toNat n.toNat) : engineTurn s = complete (computeBusError s) := by
  rw [engineTurn_compute hb hl, performCompute, computeAcc_eq_none.mpr h, hr]
  rfl

/-- Completing a command that is not raced empties the latch and clears BUSY, no more. -/
theorem complete_eq_of_unraced (hr : s.raced = false) : complete s = { s with latch := none, busy := false } := by
  rw [complete, ← hr]

/-! ### The COMPUTE command (42_crc_compute.md R148 to R151) -/

/-- Settles O22: the three checks pass, and the accepted state is one whose Engine step ends well. -/
theorem computeCompletes : Obligations.ComputeCompletes := by
  intro s w hb hw hv htw hrange
  have hmatch : tableMatches w s = true := by simp [tableMatches, hv, htw, hw]
  refine ⟨_, exec_compute_accepts hb (widthOfCode_eq_some.mpr hw) hmatch (bufferInRange_of_fits hrange), rfl, ?_⟩
  rintro hadmit acc rfl
  exact engineTurn_compute_admitted rfl rfl rfl hadmit

/-- Settles O24: one refused byte is enough for the bus error, which sets ERR and draws ACC. (The bare name `computeBusError` is the
model's own operation.) -/
theorem computeBusError_settled : Obligations.ComputeBusError := by
  rintro s w ri ro i x a n hb hr hl ⟨k, hk, hrefused⟩
  have hnot : ¬ bufferAdmitted s.platform a.toNat n.toNat := fun h => by simp [h k hk] at hrefused
  rw [engineTurn_compute_refused hb hr hl hnot]
  exact complete_eq_of_unraced hr

/-- Settles O25: what the Engine step leaves in ACC and RESULT names only the inputs on which the two agree. -/
theorem computeDependsOnlyOnItsInputs : Obligations.ComputeDependsOnlyOnItsInputs := by
  intro s₁ s₂ w ri ro i₁ i₂ x₁ x₂ a₁ a₂ n hb₁ hb₂ hr₁ hr₂ hl₁ hl₂ hi hx hbytes hadmit₁ hadmit₂ ht hfull
  rw [engineTurn_compute_admitted hb₁ hr₁ hl₁ hadmit₁, engineTurn_compute_admitted hb₂ hr₂ hl₂ hadmit₂, hi, hbytes,
    tableEntry_eq_of_complete ht hfull]
  exact ⟨rfl, finalValue_congr hx _⟩

/-- COMPUTE without a complete table of a legal width is rejected, before its buffer is looked at (42_crc_compute.md R148). -/
theorem exec_compute_rejects_table (hb : s.busy = false) (hw : s.width = widthCode w) (hm : tableMatches w s = false) :
    exec .compute s = .next (raiseErr errTable s) := by
  simp [exec, execCompute, hb, hw, hm]

/-- Settles O23: an empty buffer is admitted on every platform and its fold is the initial accumulator; the table is checked first. -/
theorem computeOfEmptyBuffer : Obligations.ComputeOfEmptyBuffer := by
  refine ⟨fun s w ri ro i x a hb hr hl => ?_, fun s hb hwidth _ htable => ?_⟩
  · have hadmit : bufferAdmitted s.platform a.toNat (0 : Word).toNat := fun k hk => absurd hk k.not_lt_zero
    rw [engineTurn_compute_admitted hb hr hl hadmit]
    exact complete_eq_of_unraced hr
  · obtain ⟨w, hw⟩ := exists_widthOfCode hwidth
    have hcode := widthOfCode_eq_some.mp hw
    have hm : tableMatches w s = false := by
      obtain hv | htw := htable
      · simp [tableMatches, hv]
      · simp [tableMatches, ← hcode, htw]
    exact exec_compute_rejects_table hb hcode hm

/-! ### The all-zero table after reset (70_reset_and_hazards.md R204, log entry 9) -/

/-- The Engine step of COMPUTE over an all-zero 8-bit table: INIT stays in ACC over an empty buffer, and 0 takes its place over any other. -/
theorem engineTurn_compute_zeroTable (hb : s.busy = true) (hr : s.raced = false) (hl : s.latch = some (.compute .w8 ri ro i x a n))
    (ht : s.table = Vector.replicate 256 (some 0)) (h : bufferAdmitted s.platform a.toNat n.toNat) :
    engineTurn s = complete (computeResult .w8 ro x (if n.toNat = 0 then truncW .w8 i else 0) s) := by
  rw [engineTurn_compute_admitted hb hr hl h, tableEntry_of_zeroTable ht, foldl_crcStep_zeroTable]
  simp [bufferBytes]

/-- Settles O28: reset leaves POLY 0, whose table is all zero, and over that table the first byte step forgets INIT. -/
theorem zeroTableForgetsInit : Obligations.ZeroTableForgetsInit := by
  refine ⟨?_, fun s ri ro i x a n hb hr hl ht hadmit => ?_⟩
  · obtain ⟨t, hexec, -, hturn⟩ := gentabCompletes State.reset .w8 rfl rfl
    exact ⟨t, hexec, by rw [hturn]; exact genTable_zero .w8⟩
  · rw [engineTurn_compute_zeroTable hb hr hl ht hadmit]
    refine ⟨fun hn => ?_, fun hinit => ?_⟩
    · rw [if_neg hn.ne']
      exact ⟨rfl, finalValue_zero⟩
    · have hacc : (if n.toNat = 0 then truncW .w8 i else 0) = truncW .w8 i := by
        obtain hn | hi := hinit
        · exact if_pos hn
        · rw [hi, ite_self]
      rw [hacc]
      exact ⟨rfl, finalValue_init⟩

end Sys2Proof.Machine
end

section
/-! PROOFS. What a word written to CMD does (60_exceptions.md section 2): the step that issues it, the order of its checks and their codes,
what it leaves unchanged, OVR, and the model faults. -/

namespace Sys2Proof.Machine

variable {s t : State} {v : Word} {i : Instr} {code : BitVec 4}

/-! ### The order of the checks (60_exceptions.md R173 to R176, R180) -/

/-- Why a command is rejected while BUSY = 0, with its code: each check beside the ones passed before it (60_exceptions.md R173 to R175). -/
inductive Rejected (s : State) : Instr → BitVec 4 → Prop where
  | count (n : Nat) (hn : 32 < n) : Rejected s (.reflect n) errArg
  | gentabWidth (hw : s.width = 3) : Rejected s .gentab errArg
  | computeWidth (hw : s.width = 3) : Rejected s .compute errArg
  | table (w : Width) (hw : s.width = widthCode w) (hm : tableMatches w s = false) : Rejected s .compute errTable
  | range (w : Width) (hw : s.width = widthCode w) (hm : tableMatches w s = true) (hr : bufferInRange s.daddr s.dlen = false) :
      Rejected s .compute errRange

/-- A rejected command sets ERR and nothing else (60_exceptions.md R178). -/
theorem Rejected.exec_eq (h : Rejected s i code) (hb : s.busy = false) : exec i s = .next (raiseErr code s) := by
  cases h with
  | count n hn => exact exec_reflect_rejects hb hn
  | gentabWidth hw => simp [exec, execGentab, hb, widthOfCode_eq_none.mpr hw]
  | computeWidth hw => simp [exec, execCompute, hb, widthOfCode_eq_none.mpr hw]
  | table w hw hm => exact exec_compute_rejects_table hb hw hm
  | range w hw hm hr => simp [exec, execCompute, hb, hw, hm, hr]

/-- The two ways of asking for a table of the width that CFG names agree (60_exceptions.md R174). -/
theorem tableMatches_eq {w : Width} (hw : s.width = widthCode w) :
    (!s.tvalid || s.twidth != s.width) = !tableMatches w s := by
  rw [tableMatches, ← hw, Bool.not_and]; rfl

/-- The two ways of asking for a buffer in range agree (60_exceptions.md R175). -/
theorem bufferInRange_eq (addr len : Word) :
    (decide (0 < len.toNat) && decide (4294967296 < addr.toNat + len.toNat)) = !bufferInRange addr len := by
  rw [Bool.eq_iff_iff]
  simp [bufferInRange, Nat.pos_iff_ne_zero]

/-- The first condition that holds for a command's word is a reason to reject the command. -/
theorem rejected_of_firstError (hd : decode v = .command i) (hf : firstError v s = some code) : Rejected s i code := by
  have hlegal := not_illegalWord_of_decode hd
  obtain ⟨-, hfields⟩ := fields_of_decode hd
  simp only [opField] at hfields
  obtain ⟨hop, -, rfl⟩ | ⟨hop, -, rfl⟩ | ⟨hop, rfl⟩ := hfields
  · have hw : s.width = 3 ∧ errArg = code := by simpa [firstError, hlegal, hop, errArg] using hf
    obtain ⟨hw, rfl⟩ := hw
    exact .gentabWidth hw
  · by_cases hw : s.width = 3#2
    · have hc : errArg = code := by simpa [firstError, hlegal, hop, hw, errArg] using hf
      exact hc ▸ .computeWidth hw
    · obtain ⟨w, hw'⟩ := exists_widthOfCode hw
      have hcode := widthOfCode_eq_some.mp hw'
      cases hm : tableMatches w s with
      | false =>
        have hc : errTable = code := by simpa [firstError, hlegal, hop, hw, tableMatches_eq hcode, hm, errTable] using hf
        exact hc ▸ .table w hcode hm
      | true =>
        have hc : bufferInRange s.daddr s.dlen = false ∧ errRange = code := by
          simpa [firstError, hlegal, hop, hw, tableMatches_eq hcode, hm, bufferInRange_eq, errRange] using hf
        obtain ⟨hr, rfl⟩ := hc
        exact .range w hcode hm hr
  · have hn : 32 < (countField v).toNat ∧ errArg = code := by simpa [firstError, hlegal, hop, errArg, countField] using hf
    obtain ⟨hn, rfl⟩ := hn
    exact .count _ hn

/-- The first condition that holds for a word: it is illegal, or it is a command's and the command is rejected. -/
theorem firstError_cases (hf : firstError v s = some code) :
    (illegalWord v = true ∧ code = errIllegal) ∨ ∃ i, decode v = .command i ∧ Rejected s i code := by
  cases hv : illegalWord v with
  | true =>
    have hc : errIllegal = code := by simpa [firstError, hv, errIllegal] using hf
    exact .inl ⟨rfl, hc.symm⟩
  | false =>
    obtain ⟨i, hd⟩ : ∃ i, decode v = .command i := by
      by_contra h
      rw [illegalWord_iff.mpr (decode_illegal_iff.mpr h)] at hv
      cases hv
    exact .inr ⟨i, hd, rejected_of_firstError hd hf⟩

/-- The first condition that holds is the one reported (60_exceptions.md R180). -/
theorem issue_reports (hb : s.busy = false) (hf : firstError v s = some code) : issue v s = .next (raiseErr code s) := by
  obtain ⟨hv, rfl⟩ | ⟨i, hd, hr⟩ := firstError_cases hf
  · exact issue_illegal hb hv
  · rw [issue_command hb hd, hr.exec_eq hb]

/-- A word written to CMD while BUSY = 1 sets OVR alone (60_exceptions.md R177). -/
theorem issue_busy (v : Word) (hb : s.busy = true) : issue v s = .next (overrun s) := by
  simp [issue, hb]

/-- A COMPUTE that meets a refused read ends with ERR = BUS, raced or not (42_crc_compute.md R150). -/
theorem performCompute_err_refused {w : Width} {ri ro : Bool} {i x a n : Word} (h : ¬ bufferAdmitted s.platform a.toNat n.toNat) :
    (performCompute w ri ro i x a n s).err = errBus := by
  rw [performCompute_eq w ri ro i x a n s none (computeAcc_eq_none.mpr h)]; rfl

/-- Settles O8: each row's code is the reason to reject the command, and the last row is the refused read of the Engine step. -/
theorem firstErrorIsReported : Obligations.FirstErrorIsReported := by
  refine ⟨fun _ v hb => issue_busy v hb, fun _ _ _ hb hf => issue_reports hb hf, fun s v hb hf => ?_,
    fun s w ri ro i x a n hb hl h => ?_⟩
  · obtain ⟨l, u, hu⟩ := issue_accepts hb hf
    exact ⟨_, hu, rfl, rfl, rfl⟩
  · rw [engineTurn_compute hb hl]
    exact performCompute_err_refused h

/-- ERR = ARG names one of two causes (60_exceptions.md R173). -/
theorem Rejected.arg_causes (h : Rejected s i errArg) :
    (∃ n, 32 < n ∧ i = .reflect n) ∨ ((i = .gentab ∨ i = .compute) ∧ s.width = 3) := by
  generalize hc : errArg = code at h
  cases h with
  | count n hn => exact .inl ⟨n, hn, rfl⟩
  | gentabWidth hw => exact .inr ⟨.inl rfl, hw⟩
  | computeWidth hw => exact .inr ⟨.inr rfl, hw⟩
  | table => exact absurd hc (by decide)
  | range => exact absurd hc (by decide)

/-- A word written to CMD while BUSY = 0 leaves a nonzero ERR only where it is the code of the first condition that holds. -/
theorem firstError_of_issue (h : issue v s = .next t) (hb : s.busy = false) (he : t.err ≠ errNone) : firstError v s = some t.err := by
  cases hf : firstError v s with
  | none =>
    obtain ⟨l, u, hu⟩ := issue_accepts hb hf
    rw [hu] at h; cases h
    exact absurd rfl he
  | some code =>
    rw [issue_reports hb hf] at h; cases h
    rfl

/-- Settles O18: both causes are reasons to reject the command, and no other reason has the code ARG. -/
theorem argumentErrors : Obligations.ArgumentErrors := by
  refine ⟨fun s n hb hlo hhi => ?_, fun s hb hw => ⟨(Rejected.gentabWidth hw).exec_eq hb, (Rejected.computeWidth hw).exec_eq hb⟩,
    fun s t v h hb _ he => ?_⟩
  · have hwf : (Instr.reflect n).wellFormed = true := wellFormed_reflect_iff.mpr (Nat.lt_succ_of_le hhi)
    rw [issue_command hb (decode_encode hwf)]
    exact exec_reflect_rejects hb hlo
  · have hf := firstError_of_issue h hb (by rw [he]; decide)
    rw [he] at hf
    obtain ⟨-, hc⟩ | ⟨i, hd, hr⟩ := firstError_cases hf
    · exact absurd hc (by decide)
    · obtain ⟨rfl, hwf⟩ := encode_of_decode hd
      obtain ⟨n, hn, rfl⟩ | ⟨hi, hw⟩ := hr.arg_causes
      · exact .inl ⟨n, hn, Nat.le_of_lt_succ (wellFormed_reflect_iff.mp hwf), rfl⟩
      · exact .inr ⟨hi.imp (congrArg encode) (congrArg encode), hw⟩

/-! ### What a command's issue leaves alone (60_exceptions.md R170, R171, R178) -/

/-- What a command written to CMD can do: it is ignored, rejected or accepted (60_exceptions.md R171, R178). -/
inductive ExecEffect (s : State) (i : Instr) : State → Prop where
  | ignored (hb : s.busy = true) : ExecEffect s i (overrun s)
  | rejected (hb : s.busy = false) (code : BitVec 4) : ExecEffect s i (raiseErr code s)
  | accepted (hb : s.busy = false) (t : State) (ha : Accepted s i t) : ExecEffect s i t

/-- A command written to CMD has one of the effects. -/
theorem exec_effect (h : exec i s = .next t) : ExecEffect s i t := by
  obtain ⟨hb, rfl⟩ | ⟨hb, code, -, rfl⟩ | ⟨hb, rfl, w, hw, rfl⟩ | ⟨hb, rfl, w, hw, ht, hr, rfl⟩ | ⟨hb, n, rfl, hn, rfl⟩ :=
    exec_cases h
  · exact .ignored hb
  · exact .rejected hb code
  · exact .accepted hb _ (.gentab w hw)
  · exact .accepted hb _ (.compute w hw ht hr)
  · exact .accepted hb _ (.reflect n hn)

/-- A command's issue reaches BUSY, the latch, the race mark, TVALID, ERR and OVR, and no other field. -/
theorem ExecEffect.frame (h : ExecEffect s i t) : ∃ b l r tv e ov, t = { s with
    busy := b, latch := l, raced := r, tvalid := tv, err := e, ovr := ov } := by
  cases h with
  | ignored => exact ⟨_, _, _, _, _, _, rfl⟩
  | rejected => exact ⟨_, _, _, _, _, _, rfl⟩
  | accepted hb _ ha => cases ha <;> exact ⟨_, _, _, _, _, _, rfl⟩

/-- Only GENTAB clears TVALID at its issue (10_state.md R33). -/
theorem ExecEffect.tvalid (h : ExecEffect s i t) (hi : i ≠ .gentab) : t.tvalid = s.tvalid := by
  cases h with
  | ignored => rfl
  | rejected => rfl
  | accepted hb _ ha =>
    cases ha with
    | gentab => exact absurd rfl hi
    | compute => rfl
    | reflect => rfl

/-- With BUSY = 0 a command's issue leaves OVR alone (60_exceptions.md R177). -/
theorem ExecEffect.ovr (h : ExecEffect s i t) (hb : s.busy = false) : t.ovr = s.ovr := by
  cases h with
  | ignored hb' => rw [hb] at hb'; cases hb'
  | rejected => rfl
  | accepted _ _ ha => cases ha <;> rfl

/-- A command's issue that leaves BUSY = 0 is a rejection, which changes ERR alone (60_exceptions.md R178). -/
theorem ExecEffect.stays_idle (h : ExecEffect s i t) (ht : t.busy = false) : t = { s with err := t.err } := by
  cases h with
  | ignored hb => rw [overrun_busy, hb] at ht; cases ht
  | rejected => rfl
  | accepted _ _ ha => cases ha <;> cases ht

/-- A command written to CMD while BUSY = 1 sets OVR alone, whatever the command (60_exceptions.md R177). -/
theorem exec_busy (i : Instr) (hb : s.busy = true) : exec i s = .next (overrun s) := by
  cases i with
  | gentab => simp [exec, execGentab, hb]
  | compute => simp [exec, execCompute, hb]
  | reflect n => simp [exec, execReflect, hb]

/-- Settles O9: the frame of the issue, and what its outcomes do to the fields within that frame. -/
theorem commandFrame : Obligations.CommandFrame := by
  intro i s t h
  have heffect := exec_effect h
  refine ⟨?_, ?_, ?_, ?_, ?_, ?_, ?_, heffect.tvalid, heffect.ovr, heffect.stays_idle⟩
  all_goals obtain ⟨b, l, r, tv, e, ov, rfl⟩ := heffect.frame
  · exact ⟨rfl, rfl, rfl, rfl, rfl, rfl, rfl, rfl, rfl⟩
  · exact ⟨fun _ => rfl, rfl, rfl, rfl, rfl, rfl⟩
  all_goals rfl

/-! ### The overrun flag (60_exceptions.md R177) -/

/-- No command reads or writes OVR, so the running one comes to the same end with it set. -/
theorem perform_overrun (l : Latch) (s : State) : perform l (overrun s) = overrun (perform l s) := by
  cases l with
  | gentab => rfl
  | reflect => rfl
  | compute w ri ro i x a n =>
    have hacc : computeAcc w ri i a n (overrun s) = computeAcc w ri i a n s := computeAcc_congr w ri i a n rfl rfl rfl rfl
    simp only [perform, performCompute_eq w ri ro i x a n s _ rfl, performCompute_eq w ri ro i x a n (overrun s) _ hacc]
    rfl

/-- The Engine's turn and an ignored write to CMD give the same state in either order. -/
theorem engineTurn_overrun (s : State) : engineTurn (overrun s) = overrun (engineTurn s) := by
  cases hb : s.busy with
  | false => rw [engineTurn_idle hb, engineTurn_idle (s := overrun s) hb]
  | true =>
    cases hl : s.latch with
    | none => simp [engineTurn, hl]
    | some l => simpa [engineTurn, hb, hl] using perform_overrun l s

/-- A word written to CMD never clears OVR. -/
theorem IssueEffect.ovr (h : IssueEffect s v t) (hs : s.ovr = true) : t.ovr = true := by
  cases h with
  | ignored => rfl
  | rejected => exact hs
  | accepted hb i _ hd ha => cases ha <;> exact hs

/-- The one register write that clears OVR is to STATUS with bit 8 = 1 (10_state.md R35). -/
theorem writeReg_clears_ovr {r : Reg} (h : writeReg r v s = .next t) (hs : s.ovr = true) (ht : t.ovr = false) :
    r = .status ∧ v.getLsbD 8 = true := by
  cases r with
  | status =>
    cases h
    rw [writeStatus_ovr, hs] at ht
    simpa using ht
  | cmd => rw [(issue_effect h).ovr hs] at ht; cases ht
  | _ => cases h; exact absurd (hs.symm.trans ht) (by decide)

/-- A step clears OVR only by reset or by a write to STATUS with bit 8 = 1 (10_state.md R35). -/
theorem step_clears_ovr (h : step s = .next t) (hs : s.ovr = true) (ht : t.ovr = false) :
    resetMoves s = true ∨ ∃ v, nextRegWrite .status s = some v ∧ v.getLsbD 8 = true := by
  have hkept : t.ovr ≠ s.ovr := by rw [hs, ht]; decide
  cases step_effect h with
  | engine =>
    obtain ⟨-, hovr⟩ := (engineTurn_effect (takeMove s)).outside
    exact absurd hovr hkept
  | reset hm => exact .inl (resetMoves_of hm)
  | records => exact absurd rfl hkept
  | regWrite r v _ hw hx =>
    obtain ⟨rfl, hbit⟩ := writeReg_clears_ovr hx hs ht
    exact .inr ⟨v, hw, hbit⟩
  | stored => exact absurd rfl hkept
  | raced => exact absurd rfl hkept

/-- Settles O7: an ignored write is the overrun, which the Engine's turn does not see. -/
theorem commandWhileBusyIsIgnored : Obligations.CommandWhileBusyIsIgnored :=
  ⟨fun _ v hb => issue_busy v hb, fun _ i hb => exec_busy i hb, engineTurn_overrun, fun _ _ => step_clears_ovr⟩

/-! ### The model faults (60_exceptions.md R186) -/

/-- A word written to CMD records no model fault. -/
theorem IssueEffect.faults (h : IssueEffect s v t) : t.faults = s.faults := by
  cases h with
  | ignored => rfl
  | rejected => rfl
  | accepted hb i _ hd ha => cases ha <;> rfl

/-- A register write records no model fault. -/
theorem writeReg_faults {r : Reg} (h : writeReg r v s = .next t) : t.faults = s.faults := by
  by_cases hr : r = .cmd
  · subst hr; exact (issue_effect h).faults
  · obtain ⟨_, _, _, _, _, _, _, _, _, _, rfl⟩ := writeReg_frame hr h
    rfl

/-- A step only adds model faults to the end of the record. -/
theorem step_faults (h : step s = .next t) : s.faults <+: t.faults := by
  cases step_effect h with
  | engine =>
    obtain ⟨hsame, -⟩ := (engineTurn_effect (takeMove s)).outside
    rw [hsame.faults]; exact List.prefix_rfl
  | reset => exact List.prefix_rfl
  | records fs => exact List.prefix_append _ fs
  | regWrite r v _ hw hx => rw [writeReg_faults hx]; exact List.prefix_rfl
  | stored => exact List.prefix_rfl
  | raced addr => exact List.prefix_append _ [ModelFault.bufferRace addr]

/-- A run only adds model faults to the end of the record. -/
theorem runSteps_faults {k : Nat} (h : runSteps k s = .next t) : s.faults <+: t.faults := by
  induction k generalizing s with
  | zero => cases h; exact List.prefix_rfl
  | succ k ih =>
    simp only [runSteps] at h
    split at h
    · rename_i u hu
      exact (step_faults hu).trans (ih h)
    · cases h
    · cases h

/-- A state with a model fault on record is not final (70_reset_and_hazards.md R213). -/
theorem final_eq_false_of_faults (h : s.faults ≠ []) : s.final = false := by
  simp [State.final, State.clean, h]

/-- Settles O48: faults only grow, over a step and so over a run. -/
theorem faultedRunsAreNeverFinal : Obligations.FaultedRunsAreNeverFinal := by
  refine ⟨fun s t h => ?_, fun k s t hs h => final_eq_false_of_faults ((runSteps_faults h).ne_nil hs)⟩
  obtain ⟨fs, hfs⟩ := step_faults h
  exact ⟨fs, hfs.symm⟩

/-! ### The step that issues a command (60_exceptions.md R171, 10_state.md R38) -/

/-- The Host's write of a register is a step: the write, on the state with the action taken off. -/
theorem step_writeAction {r : Reg} (h : nextAction s = some (writeAction s.platform r v)) : step s = writeReg r v (takeAction s) :=
  (step_action h).trans (hostStep_writeAction r v (takeAction s))

/-- The issue of a command's word is the command, BUSY = 1 included. -/
theorem issue_eq_exec (hd : decode v = .command i) : issue v s = exec i s := by
  cases hb : s.busy with
  | true => rw [issue_busy v hb, exec_busy i hb]
  | false => exact issue_command hb hd

/-- A word placed for the next step is the Host's next action, a write to CMD (10_state.md R38). -/
theorem nextAction_withFetchWord (s : State) (v : Word) :
    nextAction (s.withFetchWord 32 v.toNat) = some (writeAction s.platform .cmd v) := by
  have hword : BitVec.ofNat 32 (v.toNat % 2 ^ 32) = v := by rw [Nat.mod_eq_of_lt v.isLt, BitVec.ofNat_toNat, BitVec.setWidth_eq]
  rw [State.withFetchWord, placeCommand, hword]
  rfl

/-- The step that finds a word placed for it is the issue of that word. -/
theorem step_withFetchWord (s : State) (v : Word) : step (s.withFetchWord 32 v.toNat) = issue v s :=
  step_writeAction (nextAction_withFetchWord s v)

/-- Settles O6: the Host's write to CMD is the issue, and the issue of a command's word is the command. -/
theorem stepRunsTheIssuedCommand : Obligations.StepRunsTheIssuedCommand := by
  refine ⟨fun s v h => step_writeAction h, fun s v i h hd => ?_, step_withFetchWord, fun s i hi => ?_⟩
  · rw [step_writeAction h]
    exact issue_eq_exec hd
  · rw [step_withFetchWord, issue_eq_exec (decode_encode hi)]

end Sys2Proof.Machine
end

section
/-! PROOFS. Register writes while a command runs (70_reset_and_hazards.md R208), and the reset input at any time (R200). -/

namespace Sys2Proof.Machine

variable {s t : State} {r : Reg} {v : Word}

/-! ### Register writes and the running command (10_state.md R40, R41) -/

/-- Of what a register write other than CMD's can change, the byte loop reads nothing. -/
theorem computeAcc_writeReg (w : Width) (ri : Bool) (i a n : Word) (hr : r ≠ .cmd) (h : writeReg r v s = .next t) :
    computeAcc w ri i a n t = computeAcc w ri i a n s := by
  obtain ⟨_, _, _, _, _, _, _, _, _, _, rfl⟩ := writeReg_frame hr h
  exact computeAcc_congr w ri i a n rfl rfl rfl rfl

/-- A latched command performed and a register write other than CMD's give the same state in either order. -/
theorem writeReg_perform (l : Latch) (hr : r ≠ .cmd) (h : writeReg r v s = .next t) :
    writeReg r v (perform l s) = .next (perform l t) := by
  have hacc := fun w ri i a n => computeAcc_writeReg w ri i a n hr h
  cases r with
  | cmd => exact absurd rfl hr
  | _ =>
    cases h
    cases l with
    | gentab => rfl
    | reflect => rfl
    | compute w ri ro i x a n =>
      simp only [perform, performCompute_eq w ri ro i x a n s _ rfl, performCompute_eq w ri ro i x a n _ _ (hacc w ri i a n)]
      rfl

/-- The Engine's turn and a register write other than CMD's give the same state in either order. -/
theorem writeReg_engineTurn (hr : r ≠ .cmd) (h : writeReg r v s = .next t) :
    writeReg r v (engineTurn s) = .next (engineTurn t) := by
  have hkept := writeReg_sameCommand hr h
  cases hb : s.busy with
  | false => rwa [engineTurn_idle hb, engineTurn_idle (hkept.busy.trans hb)]
  | true =>
    cases hl : s.latch with
    | none => simpa only [engineTurn, hkept.latch, hl, ite_self] using h
    | some l => simpa only [engineTurn, hkept.busy, hkept.latch, hb, hl, if_true] using writeReg_perform l hr h

/-- Settles O38: no operand register is CMD, and every other register write commutes with the Engine's turn. -/
theorem operandWritesWhileBusyAreSafe : Obligations.OperandWritesWhileBusyAreSafe := by
  intro s r v hb hmem
  have hr : r ≠ .cmd := by rintro rfl; revert hmem; decide
  obtain ⟨t, h⟩ := writeSlot_next (.reg r) v s
  have hkept := writeReg_sameCommand hr h
  exact ⟨t, h, hkept.busy.trans hb, hkept.latch, writeReg_engineTurn hr h⟩

/-! ### Reset at any time -/

/-- Settles O51: the step is the reset of the block, with the move taken off the schedule. -/
theorem resetAbandonsTheCommand : Obligations.ResetAbandonsTheCommand := by
  intro s h
  obtain ⟨hcfg, hstatus⟩ := resetBlock_words (takeMove s)
  exact ⟨resetBlock (takeMove s), step_reset h, rfl, rfl, rfl, hcfg, hstatus, rfl, rfl, rfl, rfl, rfl, rfl, rfl, rfl,
    rfl, rfl, rfl, rfl, rfl⟩

end Sys2Proof.Machine
end

section
/-! PROOFS. When the machine stops (20_memory.md R60, log entry 5), and the command words of 95_test_vectors.md section 2.4. -/

namespace Sys2Proof.Machine

variable {s : State} {addr : Word} {size : Access} {data : BitVec 64}

/-! ### When the machine stops -/

/-- The next step writes memory exactly where its write is addressed outside the window. -/
theorem nextMemWrite_eq_some :
    nextMemWrite s = some (addr, size, data) ↔
      nextAction s = some (.write addr size data) ∧ windowOffset s.platform addr = none := by
  constructor
  · intro h
    simp only [nextMemWrite] at h
    split at h
    · rename_i ha
      split at h
      · rename_i ho
        cases h
        exact ⟨ha, ho⟩
      · cases h
    · cases h
  · rintro ⟨ha, ho⟩
    exact nextMemWrite_of_action ha ho

/-- A host memory write past the last address stops the machine. -/
theorem hostWrite_pastTheTop (data : BitVec 64) (ho : windowOffset s.platform addr = none)
    (hpast : Config.addressSpace < addr.toNat + accessBytes size) :
    hostWrite addr size data s = .fault (.beyondMemory addr size) := by
  simp only [hostWrite, ho, memoryWrite, hpast, if_true]

/-- A host write into the window, or one that stays inside the address space, answers a next state. -/
theorem hostWrite_next (data : BitVec 64)
    (hfits : windowOffset s.platform addr = none → addr.toNat + accessBytes size ≤ Config.addressSpace) :
    ∃ t, hostWrite addr size data s = .next t := by
  cases ho : windowOffset s.platform addr with
  | none => exact ⟨_, hostWrite_memory data ho (hfits ho)⟩
  | some off =>
    simp only [hostWrite, ho]
    split
    · exact writeSlot_next _ _ s
    · exact ⟨_, rfl⟩

/-- A step that is a host memory write past the last address stops with that fault. -/
theorem step_pastTheTop (hw : nextMemWrite s = some (addr, size, data))
    (hpast : Config.addressSpace < addr.toNat + accessBytes size) : step s = .fault (.beyondMemory addr size) := by
  obtain ⟨ha, ho⟩ := nextMemWrite_eq_some.mp hw
  rw [step_action ha]
  exact hostWrite_pastTheTop data ho hpast

/-- A step that is no host memory write past the last address answers a next state, whoever takes it. -/
theorem step_next (hfits : ∀ addr size data, nextMemWrite s = some (addr, size, data) →
    addr.toNat + accessBytes size ≤ Config.addressSpace) : ∃ t, step s = .next t := by
  cases hm : nextMove s with
  | engine => exact ⟨_, step_engine hm⟩
  | reset => exact ⟨_, step_reset hm⟩
  | host =>
    cases hp : s.program with
    | nil => exact ⟨_, step_idle hm hp⟩
    | cons a acts =>
      have ha : nextAction s = some a := nextAction_eq_some.mpr ⟨hm, acts, hp⟩
      rw [step_action ha]
      cases a with
      | wait => exact ⟨_, rfl⟩
      | read => exact ⟨_, rfl⟩
      | write addr size data => exact hostWrite_next data fun ho => hfits addr size data (nextMemWrite_of_action ha ho)

/-- Settles O43: a memory write past the top stops with a fault, and every other step answers a next state. -/
theorem onlyWritesPastTheTopStop : Obligations.OnlyWritesPastTheTopStop := by
  intro s
  by_cases hpast : ∃ addr size data, nextMemWrite s = some (addr, size, data) ∧ 4294967296 < addr.toNat + accessBytes size
  · obtain ⟨addr, size, data, hw, htop⟩ := hpast
    rw [step_pastTheTop hw htop]
    exact ⟨by simp, fun _ => ⟨addr, size, data, hw, htop⟩, fun _ => ⟨_, rfl⟩⟩
  · obtain ⟨t, ht⟩ := step_next fun addr size data hw => Nat.not_lt.mp fun htop => hpast ⟨addr, size, data, hw, htop⟩
    rw [ht]
    exact ⟨by simp, by simp, fun h => absurd h hpast⟩

/-! ### The words of the decode vectors -/

/-- Settles O5: the legal words are the words of their commands, and each illegal word fails the check named. -/
theorem specWordsDecode : Obligations.SpecWordsDecode :=
  ⟨decode_encode (i := .gentab) rfl, decode_encode (i := .compute) rfl, decode_encode (i := .reflect 0) rfl,
    decode_encode (i := .reflect 8) rfl, decode_encode (i := .reflect 32) rfl, decode_encode (i := .reflect 63) rfl,
    by decide, by decide, by decide, by decide⟩

end Sys2Proof.Machine
end
